-- ==== Sys2Proof/Word.lean ====
section
/-! DEFINITION. The word types of spec/00_scope.md section 4: every value is an unsigned integer of a stated width (R7). -/

namespace Sys2Proof

/-- An Instruction Word: "an opaque 32-bit unsigned integer" (R6). -/
abbrev Word32 := BitVec 32

/-- A register index (R11, R48). -/
abbrev U3 := BitVec 3

/-- A value of the OP field (R19). -/
abbrev U4 := BitVec 4

/-- A value of the VL field (R19, R47). -/
abbrev U25 := BitVec 25

/-- A byte of the loader's stream or of a text (R26, R95). -/
abbrev Byte := BitVec 8

end Sys2Proof
end

