-- ==== Sys2Proof/Config.lean ====
section
/-! DEFINITION. What is configuration and not state (spec/10_state.md R13): the type of a field descriptor, and the
types of the parameters the spec leaves open (spec/92_eei_decisions.md, "Named open parameters"). `HAS_HIGHLIGHTER`
is an argument of every function that depends on it; `State.hasHighlighter` carries it (log entry 2). The six field
constants and the tables stand in `Sys2Proof.Decode`. -/

namespace Sys2Proof

/-- A field descriptor, `width` bits at `lsb`. The invariant of R19 is part of the type, so a field that breaks it
cannot be written down (R57, R122, U3). -/
structure Field where
  width : Nat
  lsb : Nat
  width_pos : 0 < width
  fits : width + lsb ≤ 32
deriving DecidableEq, Repr

/-- The class of a highlighted bit range (R106). -/
inductive SpanClass where
  | raw
  | opcode
  | unused
  | regA
  | regB
  | regC
  | regL
  | value
deriving DecidableEq, Repr

/-- The open parameter `palette` (R111, R112, D10): the markup written before and after a span of a class. The
consumer owns it; it is an argument, and nothing is assumed of it (log entry 7). -/
abbrev Palette := SpanClass → List Byte × List Byte

/-- "a model that needs a concrete rendering for tests may take the identity palette" (R112). -/
def identityPalette : Palette := fun _ => ([], [])

/-- The four items of one line of the entry point's report (R28). `binary` is absent when the binary rendering is
not shown. -/
structure ReportItems where
  index : Nat
  word : Word32
  binary : Option (List Byte)
  mnemonic : List Byte
deriving DecidableEq, Repr

/-- The open parameter `report_format` (R28, D15): how the entry point lays the four items out in a line. It includes
the base, the start and the pad width of the index (D13). It is an argument (log entry 8). -/
abbrev ReportFormat := ReportItems → List Byte

end Sys2Proof
end

