-- ==== Sys2Proof/Syntax.lean ====
section
/-! DEFINITION. The value types of spec/10_state.md section 2 and the instructions of spec/opcode_table.json, one
constructor of `Instr` per row. -/

namespace Sys2Proof

/-- The 14 named opcodes, in the order of R14. -/
inductive Opcode where
  | cMov
  | load
  | store
  | add
  | mul
  | div
  | nand
  | halt
  | mapSegment
  | unmapSegment
  | output
  | input
  | loadProgram
  | loadValue
deriving DecidableEq, Repr

/-- The spec's `Class` (R15), the Opcode Classifier's result. -/
inductive Classification where
  | known (op : Opcode)
  | unrecognized (raw : Word32)
deriving DecidableEq, Repr

/-- The five layout shapes (R16, C1). -/
inductive Shape where
  | threeRegister
  | twoRegister
  | oneRegister
  | halt
  | immediate
deriving DecidableEq, Repr

/-- A shape together with the values of its operand fields (R17). -/
inductive Layout where
  | threeRegister (a b c : U3)
  | twoRegister (b c : U3)
  | oneRegister (c : U3)
  | halt
  | immediate (reg : U3) (value : U25)
deriving DecidableEq, Repr

/-- The abstract result of the block for one word (R18). -/
inductive Decoded where
  | instr (op : Opcode) (lay : Layout)
  | data (raw : Word32)
deriving DecidableEq, Repr

/-- An instruction word taken apart, one constructor per row of spec/opcode_table.json (R45). The bits a format
marks unused are kept as the operand `u`: any value is legal (R49), and the highlighter shows them (R113; log
entry 6). An unrecognized word carries the whole word (R44, R59). -/
inductive Instr where
  | cMov (u : BitVec 19) (a b c : U3)
  | load (u : BitVec 19) (a b c : U3)
  | store (u : BitVec 19) (a b c : U3)
  | add (u : BitVec 19) (a b c : U3)
  | mul (u : BitVec 19) (a b c : U3)
  | div (u : BitVec 19) (a b c : U3)
  | nand (u : BitVec 19) (a b c : U3)
  | halt (u : BitVec 28)
  | mapSegment (u : BitVec 22) (b c : U3)
  | unmapSegment (u : BitVec 25) (c : U3)
  | output (u : BitVec 25) (c : U3)
  | input (u : BitVec 25) (c : U3)
  | loadProgram (u : BitVec 22) (b c : U3)
  | loadValue (reg : U3) (value : U25)
  | unrecognized14 (raw : Word32)
  | unrecognized15 (raw : Word32)
deriving DecidableEq, Repr

end Sys2Proof
end

