-- ==== Sys2Proof/WellFormed.lean ====
section
/-! DEFINITION. Which instruction terms stand for a word of their row. Register indices, unused bits and the
immediate are legal at every value (spec/30_encoding.md R47, R48, R49), and their types hold exactly those values; the
one check is that the whole word an unrecognized row carries has that row's OP (R53, R93, R94). -/

namespace Sys2Proof

/-- The term stands for a word of its own row. -/
def Instr.wellFormed : Instr → Bool
  | .cMov _ _ _ _ => true
  | .load _ _ _ _ => true
  | .store _ _ _ _ => true
  | .add _ _ _ _ => true
  | .mul _ _ _ _ => true
  | .div _ _ _ _ => true
  | .nand _ _ _ _ => true
  | .halt _ => true
  | .mapSegment _ _ _ => true
  | .unmapSegment _ _ => true
  | .output _ _ => true
  | .input _ _ => true
  | .loadProgram _ _ _ => true
  | .loadValue _ _ => true
  | .unrecognized14 raw => raw.extractLsb' 28 4 == 14#4
  | .unrecognized15 raw => raw.extractLsb' 28 4 == 15#4

end Sys2Proof
end

