-- ==== Sys2Proof/Decode.lean ====
section
/-! DEFINITION. The Field Extractor, the Opcode Classifier, the Layout Resolver and the top-level `decode` of
spec/40_decoder_datapath.md; the reader of instructions from words and from bytes; and the encoder, written from the
formats of spec/30_encoding.md. -/

namespace Sys2Proof

/-! ## The Field Extractor (R19, R55 to R58) -/

/-- Bits 31..28 (R19). -/
def fieldOP : Field := ⟨4, 28, by decide, by decide⟩

/-- Bits 8..6 (R19). -/
def fieldRA : Field := ⟨3, 6, by decide, by decide⟩

/-- Bits 5..3 (R19). -/
def fieldRB : Field := ⟨3, 3, by decide, by decide⟩

/-- Bits 2..0 (R19). -/
def fieldRC : Field := ⟨3, 0, by decide, by decide⟩

/-- Bits 27..25 (R19). -/
def fieldRL : Field := ⟨3, 25, by decide, by decide⟩

/-- Bits 24..0 (R19). -/
def fieldVL : Field := ⟨25, 0, by decide, by decide⟩

/-- R55, with the mask read in unbounded naturals (R57, D16). -/
def extract (f : Field) (w : Word32) : Nat :=
  (w.toNat >>> f.lsb) &&& ((1 <<< f.width) - 1)

/-- `x_op` (R58). -/
def xOp (w : Word32) : U4 := BitVec.ofNat 4 (extract fieldOP w)

/-- `x_ra` (R58). -/
def xRa (w : Word32) : U3 := BitVec.ofNat 3 (extract fieldRA w)

/-- `x_rb` (R58). -/
def xRb (w : Word32) : U3 := BitVec.ofNat 3 (extract fieldRB w)

/-- `x_rc` (R58). -/
def xRc (w : Word32) : U3 := BitVec.ofNat 3 (extract fieldRC w)

/-- `x_rl` (R58). -/
def xRl (w : Word32) : U3 := BitVec.ofNat 3 (extract fieldRL w)

/-- `x_vl` (R58, R47). -/
def xVl (w : Word32) : U25 := BitVec.ofNat 25 (extract fieldVL w)

/-! ## The Opcode Classifier (R45, R59) -/

/-- The code bound to each opcode (R14, R45). -/
def Opcode.code : Opcode → U4
  | .cMov => 0
  | .load => 1
  | .store => 2
  | .add => 3
  | .mul => 4
  | .div => 5
  | .nand => 6
  | .halt => 7
  | .mapSegment => 8
  | .unmapSegment => 9
  | .output => 10
  | .input => 11
  | .loadProgram => 12
  | .loadValue => 13

/-- `opcode_of_code` (R59): the explicit decode with a distinguished no-match case (U4). -/
def opcodeOfCode (code : U4) : Option Opcode :=
  match code.toNat with
  | 0 => some .cMov
  | 1 => some .load
  | 2 => some .store
  | 3 => some .add
  | 4 => some .mul
  | 5 => some .div
  | 6 => some .nand
  | 7 => some .halt
  | 8 => some .mapSegment
  | 9 => some .unmapSegment
  | 10 => some .output
  | 11 => some .input
  | 12 => some .loadProgram
  | 13 => some .loadValue
  | _ => none

/-- `classify` (R59): a total function; codes 14 and 15 carry the whole word. -/
def classify (w : Word32) : Classification :=
  match opcodeOfCode (xOp w) with
  | some op => .known op
  | none => .unrecognized w

/-! ## The Layout Resolver and `decode` (R60 to R63) -/

/-- `layout_for` (R60). -/
def layoutFor : Opcode → Shape
  | .cMov => .threeRegister
  | .load => .threeRegister
  | .store => .threeRegister
  | .add => .threeRegister
  | .mul => .threeRegister
  | .div => .threeRegister
  | .nand => .threeRegister
  | .halt => .halt
  | .mapSegment => .twoRegister
  | .unmapSegment => .oneRegister
  | .output => .oneRegister
  | .input => .oneRegister
  | .loadProgram => .twoRegister
  | .loadValue => .immediate

/-- The shape of a layout value (R17). -/
def Layout.shape : Layout → Shape
  | .threeRegister _ _ _ => .threeRegister
  | .twoRegister _ _ => .twoRegister
  | .oneRegister _ => .oneRegister
  | .halt => .halt
  | .immediate _ _ => .immediate

/-- `operands` (R62): exactly the fields that the layout requires. -/
def operands (s : Shape) (w : Word32) : Layout :=
  match s with
  | .threeRegister => .threeRegister (xRa w) (xRb w) (xRc w)
  | .twoRegister => .twoRegister (xRb w) (xRc w)
  | .oneRegister => .oneRegister (xRc w)
  | .halt => .halt
  | .immediate => .immediate (xRl w) (xVl w)

/-- The top-level `decode` (R63). -/
def decode (w : Word32) : Decoded :=
  match classify w with
  | .unrecognized raw => .data raw
  | .known op => .instr op (operands (layoutFor op) w)

/-- "the shape of `lay` is always the shape R60 gives `op`" (R18). -/
def Decoded.consistent : Decoded → Bool
  | .instr op lay => decide (lay.shape = layoutFor op)
  | .data _ => true

/-! ## Reading an instruction -/

/-- The unused bits 27..9 of format 3R (R39). -/
def unused3R (w : Word32) : BitVec 19 := w.extractLsb' 9 19

/-- The unused bits 27..6 of format 2R (R40). -/
def unused2R (w : Word32) : BitVec 22 := w.extractLsb' 6 22

/-- The unused bits 27..3 of format 1R (R41). -/
def unused1R (w : Word32) : BitVec 25 := w.extractLsb' 3 25

/-- The unused bits 27..0 of format H (R42). -/
def unusedH (w : Word32) : BitVec 28 := w.extractLsb' 0 28

/-- The instruction a word stands for: its row of R45 and the row's fields. Every word has one (R8, R51). -/
def decodeInstr (w : Word32) : Instr :=
  match classify w with
  | .known .cMov => .cMov (unused3R w) (xRa w) (xRb w) (xRc w)
  | .known .load => .load (unused3R w) (xRa w) (xRb w) (xRc w)
  | .known .store => .store (unused3R w) (xRa w) (xRb w) (xRc w)
  | .known .add => .add (unused3R w) (xRa w) (xRb w) (xRc w)
  | .known .mul => .mul (unused3R w) (xRa w) (xRb w) (xRc w)
  | .known .div => .div (unused3R w) (xRa w) (xRb w) (xRc w)
  | .known .nand => .nand (unused3R w) (xRa w) (xRb w) (xRc w)
  | .known .halt => .halt (unusedH w)
  | .known .mapSegment => .mapSegment (unused2R w) (xRb w) (xRc w)
  | .known .unmapSegment => .unmapSegment (unused1R w) (xRc w)
  | .known .output => .output (unused1R w) (xRc w)
  | .known .input => .input (unused1R w) (xRc w)
  | .known .loadProgram => .loadProgram (unused2R w) (xRb w) (xRc w)
  | .known .loadValue => .loadValue (xRl w) (xVl w)
  | .unrecognized raw => if xOp raw = 14#4 then .unrecognized14 raw else .unrecognized15 raw

/-- The spec's decode result of an instruction: the unused bits are dropped (R49). -/
def Instr.toDecoded : Instr → Decoded
  | .cMov _ a b c => .instr .cMov (.threeRegister a b c)
  | .load _ a b c => .instr .load (.threeRegister a b c)
  | .store _ a b c => .instr .store (.threeRegister a b c)
  | .add _ a b c => .instr .add (.threeRegister a b c)
  | .mul _ a b c => .instr .mul (.threeRegister a b c)
  | .div _ a b c => .instr .div (.threeRegister a b c)
  | .nand _ a b c => .instr .nand (.threeRegister a b c)
  | .halt _ => .instr .halt .halt
  | .mapSegment _ b c => .instr .mapSegment (.twoRegister b c)
  | .unmapSegment _ c => .instr .unmapSegment (.oneRegister c)
  | .output _ c => .instr .output (.oneRegister c)
  | .input _ c => .instr .input (.oneRegister c)
  | .loadProgram _ b c => .instr .loadProgram (.twoRegister b c)
  | .loadValue reg value => .instr .loadValue (.immediate reg value)
  | .unrecognized14 raw => .data raw
  | .unrecognized15 raw => .data raw

/-- Four bytes of the stream as a word, big-endian (R26). -/
def wordOfBytes (b0 b1 b2 b3 : Byte) : Word32 :=
  (b0.setWidth 32 <<< 24) ||| (b1.setWidth 32 <<< 16) ||| (b2.setWidth 32 <<< 8) ||| b3.setWidth 32

/-- A word as it stands in the stream, the byte of bits 31..24 first (R26). -/
def bytesOfWord (w : Word32) : List Byte :=
  [w.extractLsb' 24 8, w.extractLsb' 16 8, w.extractLsb' 8 8, w.extractLsb' 0 8]

/-- Why bytes hold no instruction. Raised by `decodeBytes` alone. -/
inductive DecodeError where
  /-- Fewer than four bytes: remainder bytes, which "are the loader's concern" (R27); the block never receives
  them. -/
  | remainder (n : Nat)
deriving DecidableEq, Repr

/-- The first instruction of a byte stream and the rest of the stream; fewer than four bytes are rejected by name
(R25, R27). No whole word is rejected (R8, R50). -/
def decodeBytes : List Byte → Except DecodeError (Instr × List Byte)
  | b0 :: b1 :: b2 :: b3 :: rest => .ok (decodeInstr (wordOfBytes b0 b1 b2 b3), rest)
  | bytes => .error (.remainder bytes.length)

/-! ## The encoder, from the formats R39 to R44 -/

/-- Format 3R (R39). -/
def word3R (op : U4) (u : BitVec 19) (a b c : U3) : Word32 := op ++ u ++ a ++ b ++ c

/-- Format 2R (R40). -/
def word2R (op : U4) (u : BitVec 22) (b c : U3) : Word32 := op ++ u ++ b ++ c

/-- Format 1R (R41). -/
def word1R (op : U4) (u : BitVec 25) (c : U3) : Word32 := op ++ u ++ c

/-- Format H (R42). -/
def wordH (op : U4) (u : BitVec 28) : Word32 := op ++ u

/-- Format IMM (R43). -/
def wordIMM (op : U4) (reg : U3) (value : U25) : Word32 := op ++ reg ++ value

/-- The word of an instruction: the row's OP (R45) in the row's format; an unrecognized row is its whole word
(R44). The block itself has no encoder (R4): this one is written from the encoding tables for the model's own use. -/
def encode : Instr → Word32
  | .cMov u a b c => word3R 0 u a b c
  | .load u a b c => word3R 1 u a b c
  | .store u a b c => word3R 2 u a b c
  | .add u a b c => word3R 3 u a b c
  | .mul u a b c => word3R 4 u a b c
  | .div u a b c => word3R 5 u a b c
  | .nand u a b c => word3R 6 u a b c
  | .halt u => wordH 7 u
  | .mapSegment u b c => word2R 8 u b c
  | .unmapSegment u c => word1R 9 u c
  | .output u c => word1R 10 u c
  | .input u c => word1R 11 u c
  | .loadProgram u b c => word2R 12 u b c
  | .loadValue reg value => wordIMM 13 reg value
  | .unrecognized14 raw => raw
  | .unrecognized15 raw => raw

/-- An instruction as it stands in the loader's stream. -/
def encodeBytes (i : Instr) : List Byte := bytesOfWord (encode i)

/-- The word whose bits are the low `nbits` of `w`, every bit above them 0. -/
def tableWord (nbits w : Nat) : Word32 := BitVec.ofNat 32 (w % 2 ^ nbits)

/-- What the decoder reads from an instruction whose bits are `w`, numbered as spec/opcode_table.json numbers them:
the word is laid out big-endian and given to `decodeBytes`. No instruction has more than 32 bits (R37). -/
def decodeTableWord (nbits w : Nat) : Option Instr :=
  if nbits ≤ 32 then
    match decodeBytes (bytesOfWord (tableWord nbits w)) with
    | .ok (i, _) => some i
    | .error _ => none
  else none

end Sys2Proof
end

