-- ==== Sys2Proof/Machine/State.lean ====
section
/-! DEFINITION. The machine's data. The block itself holds NO state (spec/10_state.md R10 to R13, R20 to R24), so every
field of `State` is the model's own: the environment of the block as the spec describes it (log entries 1 to 5). The
output ports are not stored: `State.ports` computes them from `wordI` (R64, R132). -/

namespace Sys2Proof.Machine

/-- The decode ports of spec/10_state.md section 3, with their widths. -/
structure Ports where
  recognizedO : BitVec 1
  opcodeO : U4
  layoutO : BitVec 3
  validO : BitVec 5
  aO : U3
  bO : U3
  cO : U3
  rlO : U3
  vlO : U25
  rawO : Word32
deriving DecidableEq, Repr

/-- A contiguous range of bit positions with one class (R107). -/
structure Span where
  hi : Nat
  lo : Nat
  cls : SpanClass
deriving DecidableEq, Repr

/-- What the Bit Highlighter adds when it is present: the ports `bin_o` (R105) and `class_o` (R115, flattened to 96
bits), and the two parts of `highlight` (R107). -/
structure HighlighterOutputs where
  binO : Word32
  classO : BitVec 96
  digits : List Byte
  spans : List Span
deriving DecidableEq, Repr

/-- Everything the consumer can read of one evaluation of the block: the word (R139), the abstract result (R18), the
ports, the text (R95) and, with `HAS_HIGHLIGHTER` (R118), the highlighter's outputs (log entry 5). -/
structure Result where
  word : Word32
  decoded : Decoded
  ports : Ports
  text : List Byte
  highlighter : Option HighlighterOutputs
deriving DecidableEq, Repr

/-- The environment of the block, as plain data (log entry 1). -/
structure State where
  /-- The build-time parameter `HAS_HIGHLIGHTER` (R5, R118); no step writes it (log entry 2). -/
  hasHighlighter : Bool
  /-- The value the environment holds on the input port `word_i` (R64, R136; log entry 3). -/
  wordI : Word32
  /-- The loader's words not presented yet, the next one first (R25, R33; log entry 4). -/
  pending : List Word32
  /-- What the consumer has read, one entry per evaluated word, oldest first (R33; log entry 4). -/
  results : List Result
deriving DecidableEq, Repr

/-- The block "raises no exception of any kind" (R119): there is no fault, so the type has no constructor. Safe: a
fault cannot even be written down. -/
inductive Fault where
deriving DecidableEq, Repr

/-- Why a step has no meaning. R119: the block has no refusal outcome. -/
inductive Refusal where
  /-- The host's word for an instruction without a meaning. No arm of `exec` raises it: every row of the table has
  its meaning. Safe. -/
  | notModelled (mnemonic : String)
deriving DecidableEq, Repr

/-- The start of a batch: nothing presented, nothing read (spec/95_test_vectors.md section 3; log entry 4). The block has
no reset input and no reset values (R24, R131, R132). The parameter and the value on `word_i` are DESIGN CHOICE
(log entries 2 and 3). -/
def State.reset : State where
  hasHighlighter := true
  wordI := 0
  pending := []
  results := []

end Sys2Proof.Machine
end

