-- ==== Sys2Proof/Machine/Highlight.lean ====
section
/-! DEFINITION. The Bit Highlighter of spec/48_bit_highlighter.md. -/

namespace Sys2Proof.Machine

/-- The 32 binary digits, most significant first: character `k` is the digit of bit `31 - k` (R105). -/
def binaryDigits (w : Word32) : List Byte :=
  (List.range 32).map fun k => if w.getLsbD (31 - k) then 0x31 else 0x30

/-- The 3-bit number of a class (R106). -/
def spanClassNumber : SpanClass → BitVec 3
  | .raw => 0
  | .opcode => 1
  | .unused => 2
  | .regA => 3
  | .regB => 4
  | .regC => 5
  | .regL => 6
  | .value => 7

/-- R108, R39. -/
def spans3R : List Span := [⟨31, 28, .opcode⟩, ⟨27, 9, .unused⟩, ⟨8, 6, .regA⟩, ⟨5, 3, .regB⟩, ⟨2, 0, .regC⟩]

/-- R108, R40. -/
def spans2R : List Span := [⟨31, 28, .opcode⟩, ⟨27, 6, .unused⟩, ⟨5, 3, .regB⟩, ⟨2, 0, .regC⟩]

/-- R108, R41. -/
def spans1R : List Span := [⟨31, 28, .opcode⟩, ⟨27, 3, .unused⟩, ⟨2, 0, .regC⟩]

/-- R108, R42. -/
def spansH : List Span := [⟨31, 28, .opcode⟩, ⟨27, 0, .unused⟩]

/-- R108, R43. -/
def spansIMM : List Span := [⟨31, 28, .opcode⟩, ⟨27, 25, .regL⟩, ⟨24, 0, .value⟩]

/-- R108, R44: an unrecognized word is one undifferentiated span (R110, C3). -/
def spansRAW : List Span := [⟨31, 0, .raw⟩]

/-- `spans_of` (R108). -/
def spansOf : Decoded → List Span
  | .instr _ (.threeRegister _ _ _) => spans3R
  | .instr _ (.twoRegister _ _) => spans2R
  | .instr _ (.oneRegister _) => spans1R
  | .instr _ .halt => spansH
  | .instr _ (.immediate _ _) => spansIMM
  | .data _ => spansRAW

/-- The spans of a word, from the most significant bit down (R107). -/
def spans (w : Word32) : List Span := spansOf (decode w)

/-- Bit position `i` lies in the span. -/
def Span.covers (sp : Span) (i : Nat) : Bool := decide (sp.lo ≤ i) && decide (i ≤ sp.hi)

/-- The class number of bit position `i`: that of the one span with `hi >= i >= lo` (R115). The spans of a word
cover every position (R109). -/
def classEntry (sps : List Span) (i : Nat) : BitVec 3 :=
  match sps.find? fun sp => Span.covers sp i with
  | some sp => spanClassNumber sp.cls
  | none => 0

/-- `class_o` flattened: entry `i` occupies bits `3i + 2` down to `3i` (R115). -/
def classVector (sps : List Span) : BitVec 96 :=
  (List.range 32).foldl (fun v i => v ||| ((classEntry sps i).setWidth 96 <<< (3 * i))) 0

/-- The highlighter's outputs for a word cut into the given spans; `bin_o` is the word itself (R105, R107, R113, R115). -/
def highlighterOutputs (w : Word32) (sps : List Span) : HighlighterOutputs where
  binO := w
  classO := classVector sps
  digits := binaryDigits w
  spans := sps

/-- The highlighter's outputs exist only with `HAS_HIGHLIGHTER` (R118). -/
def highlightIf (has : Bool) (w : Word32) (sps : List Span) : Option HighlighterOutputs :=
  if has then some (highlighterOutputs w sps) else none

/-- `highlight` (R107). -/
def highlight (w : Word32) : List Byte × List Span := (binaryDigits w, spans w)

/-- A part of the annotated text: markup of the palette, or visible digits (R111). -/
inductive Piece where
  | markup (bytes : List Byte)
  | digits (bytes : List Byte)
deriving DecidableEq, Repr

/-- The bytes of a part. -/
def pieceBytes : Piece → List Byte
  | .markup bytes => bytes
  | .digits bytes => bytes

/-- The visible characters of a part: the palette's bytes occupy no character cell (R111, C4). -/
def pieceVisible : Piece → List Byte
  | .markup _ => []
  | .digits bytes => bytes

/-- The digits of a span: characters `31 - hi` to `31 - lo` of the digit string (R111). -/
def spanDigits (w : Word32) (sp : Span) : List Byte :=
  ((binaryDigits w).drop (31 - sp.hi)).take (sp.hi - sp.lo + 1)

/-- The annotated text in parts: for each span the palette's first bytes, the digits, the palette's last bytes (R111). -/
def annotatedPieces (palette : Palette) (w : Word32) : List Piece :=
  (spans w).flatMap fun sp =>
    [.markup (palette sp.cls).1, .digits (spanDigits w sp), .markup (palette sp.cls).2]

/-- The annotated text (R111). -/
def annotatedText (palette : Palette) (w : Word32) : List Byte := (annotatedPieces palette w).flatMap pieceBytes

/-- Its visible characters (R111). -/
def visibleText (palette : Palette) (w : Word32) : List Byte := (annotatedPieces palette w).flatMap pieceVisible

end Sys2Proof.Machine
end

