-- ==== Sys2Proof/Machine/Ops.lean ====
section
/-! DEFINITION. The operations over the environment that a step uses. There is no operation over memory or registers:
the block has neither (spec/20_memory.md R30, spec/10_state.md R11). There is no taking of an exception and no return
from one: the block raises nothing, and has no trap entry and no trap return (spec/60_exceptions.md R119, R125, R126). -/

namespace Sys2Proof.Machine

/-- The environment drives `word_i`: "A change of `word_i` is a new decode of a new word" (R35, R64, R134). -/
def State.drive (s : State) (w : Word32) : State := { s with wordI := w }

/-- The loader hands in more words, after those it handed in before (R25, R33). -/
def State.supply (s : State) (ws : List Word32) : State := { s with pending := s.pending ++ ws }

/-- One evaluation of the block: its word stands on `word_i` and the consumer reads the result after those it read
before, in input order (R33, R139). -/
def State.record (s : State) (r : Result) : State := { s with wordI := r.word, results := s.results ++ [r] }

/-- Every evaluation completes: one outcome, the output value (R119, R141). -/
def completes (s : State) (r : Result) : Host.Outcome State Fault Refusal := .next (State.record s r)

/-- The next word of the sequence and the state without it; none when the sequence is used up (R25, R33). -/
def fetch (s : State) : Option (Word32 × State) :=
  match s.pending with
  | [] => none
  | w :: rest => some (w, { s with pending := rest })

end Sys2Proof.Machine
end

