-- ==== Sys2Proof/Machine/Render.lean ====
section
/-! DEFINITION. The Mnemonic Renderer of spec/47_mnemonic_text.md: the text of a word, byte for byte. It is a reference
function, not a port (D6). -/

namespace Sys2Proof.Machine

/-- The bytes of an ASCII text, one per character (R96). -/
def ascii (s : String) : List Byte := s.toList.map fun c => BitVec.ofNat 8 c.toNat

/-- A decimal digit (R97). -/
def decDigit (n : Nat) : Byte := BitVec.ofNat 8 (0x30 + n)

/-- At most `fuel + 1` decimal digits of `n`, most significant first. -/
def decDigits : Nat → Nat → List Byte
  | 0, n => [decDigit (n % 10)]
  | fuel + 1, n => if n < 10 then [decDigit n] else decDigits fuel (n / 10) ++ [decDigit (n % 10)]

/-- The shortest decimal numeral of `n` (R97). A numeral has no more decimal digits than binary ones. -/
def dec (n : Nat) : List Byte := decDigits (Nat.log2 n) n

/-- A hexadecimal digit, lower case (R98). -/
def hexDigit (n : U4) : Byte := BitVec.ofNat 8 (if n.toNat < 10 then 0x30 + n.toNat else 0x57 + n.toNat)

/-- The eight hexadecimal digits of a word; digit `i` is the nibble `w[31 - 4i : 28 - 4i]` (R98). -/
def hex8 (w : Word32) : List Byte := (List.range 8).map fun i => hexDigit (w.extractLsb' (28 - 4 * i) 4)

/-- A register name (R99). -/
def regName (i : U3) : List Byte := ascii "r" ++ dec i.toNat

/-- R74. -/
def textCMov (a b c : U3) : List Byte :=
  ascii "if (" ++ regName c ++ ascii " != 0) " ++ regName a ++ ascii " := " ++ regName b ++ ascii ";"

/-- R75. -/
def textLoad (a b c : U3) : List Byte :=
  regName a ++ ascii " := m[" ++ regName b ++ ascii "][" ++ regName c ++ ascii "];"

/-- R76. -/
def textStore (a b c : U3) : List Byte :=
  ascii "m[" ++ regName a ++ ascii "][" ++ regName b ++ ascii "] := " ++ regName c ++ ascii ";"

/-- The shared format of R77 to R80, with the operator between two spaces. -/
def textBinary (operator : String) (a b c : U3) : List Byte :=
  regName a ++ ascii " := " ++ regName b ++ ascii " " ++ ascii operator ++ ascii " " ++ regName c ++ ascii ";"

/-- R82. -/
def textMapSegment (b c : U3) : List Byte :=
  regName b ++ ascii " := map segment (" ++ regName c ++ ascii " words);"

/-- R85. -/
def textUnmapSegment (c : U3) : List Byte := ascii "unmap " ++ regName c ++ ascii ";"

/-- R86. -/
def textOutput (c : U3) : List Byte := ascii "output " ++ regName c ++ ascii ";"

/-- R87. -/
def textInput (c : U3) : List Byte := regName c ++ ascii " := input();"

/-- R83: C comes first in the text. -/
def textLoadProgram (b c : U3) : List Byte :=
  ascii "goto " ++ regName c ++ ascii " in program m[" ++ regName b ++ ascii "];"

/-- R91. -/
def textLoadValue (reg : U3) (value : U25) : List Byte :=
  regName reg ++ ascii " := " ++ dec value.toNat ++ ascii ";"

/-- R89: no final semicolon. -/
def textHalt : List Byte := ascii "halt"

/-- R92: the fallback directive. -/
def textData (raw : Word32) : List Byte := ascii ".data 0x" ++ hex8 raw

/-- The index A of a layout; 0 where the layout has none. -/
def indexA : Layout → U3
  | .threeRegister a _ _ => a
  | _ => 0

/-- The index B of a layout; 0 where the layout has none. -/
def indexB : Layout → U3
  | .threeRegister _ b _ => b
  | .twoRegister b _ => b
  | _ => 0

/-- The index C of a layout; 0 where the layout has none. -/
def indexC : Layout → U3
  | .threeRegister _ _ c => c
  | .twoRegister _ c => c
  | .oneRegister c => c
  | _ => 0

/-- The index L of a layout; 0 where the layout has none. -/
def indexL : Layout → U3
  | .immediate reg _ => reg
  | _ => 0

/-- The immediate of a layout; 0 where the layout has none. -/
def immediateOf : Layout → U25
  | .immediate _ value => value
  | _ => 0

/-- `text_of` (R95, R100). A pair of an opcode with a layout of the wrong shape is never decoded (R18); an operand it
lacks is read as 0 (log entry 12). -/
def textOf : Decoded → List Byte
  | .data raw => textData raw
  | .instr .cMov l => textCMov (indexA l) (indexB l) (indexC l)
  | .instr .load l => textLoad (indexA l) (indexB l) (indexC l)
  | .instr .store l => textStore (indexA l) (indexB l) (indexC l)
  | .instr .add l => textBinary "+" (indexA l) (indexB l) (indexC l)
  | .instr .mul l => textBinary "*" (indexA l) (indexB l) (indexC l)
  | .instr .div l => textBinary "/" (indexA l) (indexB l) (indexC l)
  | .instr .nand l => textBinary "nand" (indexA l) (indexB l) (indexC l)
  | .instr .halt _ => textHalt
  | .instr .mapSegment l => textMapSegment (indexB l) (indexC l)
  | .instr .unmapSegment l => textUnmapSegment (indexC l)
  | .instr .output l => textOutput (indexC l)
  | .instr .input l => textInput (indexC l)
  | .instr .loadProgram l => textLoadProgram (indexB l) (indexC l)
  | .instr .loadValue l => textLoadValue (indexL l) (immediateOf l)

/-- `render` (R95). -/
def render (w : Word32) : List Byte := textOf (decode w)

end Sys2Proof.Machine
end

