-- ==== Sys2Proof/Machine/HaltFamily.lean ====
section
/-! DEFINITION. The halt family, code 7 (spec/44_halt.md). -/

namespace Sys2Proof.Machine

/-- R88, R89: no operand fields. -/
def haltResult (has : Bool) (w : Word32) : Result where
  word := w
  decoded := .instr .halt .halt
  ports :=
    { recognizedO := 1, opcodeO := 7, layoutO := 3, validO := 0b00000
      aO := 0, bO := 0, cO := 0, rlO := 0, vlO := 0, rawO := 0 }
  text := textHalt
  highlighter := highlightIf has w spansH

/-- R89: "The block does not stop, sleep or change in any way on decoding a `Halt`". -/
def execHalt (u : BitVec 28) (s : State) : Host.Outcome State Fault Refusal :=
  completes s (haltResult s.hasHighlighter (encode (.halt u)))

end Sys2Proof.Machine
end

