-- ==== Sys2Proof/Machine/Immediate.lean ====
section
/-! DEFINITION. The immediate family, code 13 (spec/45_immediate.md). -/

namespace Sys2Proof.Machine

/-- R90, R91: RL and VL, never RA, RB or RC. -/
def immediateResult (has : Bool) (w : Word32) (reg : U3) (value : U25) : Result where
  word := w
  decoded := .instr .loadValue (.immediate reg value)
  ports :=
    { recognizedO := 1, opcodeO := 13, layoutO := 4, validO := 0b00011
      aO := 0, bO := 0, cO := 0, rlO := reg, vlO := value, rawO := 0 }
  text := textLoadValue reg value
  highlighter := highlightIf has w spansIMM

/-- R91. -/
def execLoadValue (reg : U3) (value : U25) (s : State) : Host.Outcome State Fault Refusal :=
  completes s (immediateResult s.hasHighlighter (encode (.loadValue reg value)) reg value)

end Sys2Proof.Machine
end

