-- ==== Sys2Proof/Machine/OneRegister.lean ====
section
/-! DEFINITION. The one-register family, codes 9, 10 and 11 (spec/43_one_register.md). -/

namespace Sys2Proof.Machine

/-- The family rule R84: there is no A and no B operand. -/
def oneRegisterResult (has : Bool) (op : Opcode) (w : Word32) (c : U3) (text : List Byte) : Result where
  word := w
  decoded := .instr op (.oneRegister c)
  ports :=
    { recognizedO := 1, opcodeO := op.code, layoutO := 2, validO := 0b00100
      aO := 0, bO := 0, cO := c, rlO := 0, vlO := 0, rawO := 0 }
  text := text
  highlighter := highlightIf has w spans1R

/-- R85. -/
def execUnmapSegment (u : BitVec 25) (c : U3) (s : State) : Host.Outcome State Fault Refusal :=
  completes s (oneRegisterResult s.hasHighlighter .unmapSegment (encode (.unmapSegment u c)) c (textUnmapSegment c))

/-- R86: "the block performs no output of the virtual machine". -/
def execOutput (u : BitVec 25) (c : U3) (s : State) : Host.Outcome State Fault Refusal :=
  completes s (oneRegisterResult s.hasHighlighter .output (encode (.output u c)) c (textOutput c))

/-- R87: "the block reads no input of the virtual machine". -/
def execInput (u : BitVec 25) (c : U3) (s : State) : Host.Outcome State Fault Refusal :=
  completes s (oneRegisterResult s.hasHighlighter .input (encode (.input u c)) c (textInput c))

end Sys2Proof.Machine
end

