-- ==== Sys2Proof/Machine/ThreeRegister.lean ====
section
/-! DEFINITION. The three-register family, codes 0 to 6 (spec/41_three_register.md). The block decodes and does not
execute (R4): a meaning is the evaluation of the block on the instruction's word. -/

namespace Sys2Proof.Machine

/-- The family rule R73: decode result, ports and spans of a word of the family. -/
def threeRegisterResult (has : Bool) (op : Opcode) (w : Word32) (a b c : U3) (text : List Byte) : Result where
  word := w
  decoded := .instr op (.threeRegister a b c)
  ports :=
    { recognizedO := 1, opcodeO := op.code, layoutO := 0, validO := 0b11100
      aO := a, bO := b, cO := c, rlO := 0, vlO := 0, rawO := 0 }
  text := text
  highlighter := highlightIf has w spans3R

/-- R74. -/
def execCMov (u : BitVec 19) (a b c : U3) (s : State) : Host.Outcome State Fault Refusal :=
  completes s (threeRegisterResult s.hasHighlighter .cMov (encode (.cMov u a b c)) a b c (textCMov a b c))

/-- R75. -/
def execLoad (u : BitVec 19) (a b c : U3) (s : State) : Host.Outcome State Fault Refusal :=
  completes s (threeRegisterResult s.hasHighlighter .load (encode (.load u a b c)) a b c (textLoad a b c))

/-- R76. -/
def execStore (u : BitVec 19) (a b c : U3) (s : State) : Host.Outcome State Fault Refusal :=
  completes s (threeRegisterResult s.hasHighlighter .store (encode (.store u a b c)) a b c (textStore a b c))

/-- R77. -/
def execAdd (u : BitVec 19) (a b c : U3) (s : State) : Host.Outcome State Fault Refusal :=
  completes s (threeRegisterResult s.hasHighlighter .add (encode (.add u a b c)) a b c (textBinary "+" a b c))

/-- R78. -/
def execMul (u : BitVec 19) (a b c : U3) (s : State) : Host.Outcome State Fault Refusal :=
  completes s (threeRegisterResult s.hasHighlighter .mul (encode (.mul u a b c)) a b c (textBinary "*" a b c))

/-- R79. -/
def execDiv (u : BitVec 19) (a b c : U3) (s : State) : Host.Outcome State Fault Refusal :=
  completes s (threeRegisterResult s.hasHighlighter .div (encode (.div u a b c)) a b c (textBinary "/" a b c))

/-- R80. -/
def execNand (u : BitVec 19) (a b c : U3) (s : State) : Host.Outcome State Fault Refusal :=
  completes s (threeRegisterResult s.hasHighlighter .nand (encode (.nand u a b c)) a b c (textBinary "nand" a b c))

end Sys2Proof.Machine
end

