-- ==== Sys2Proof/Machine/TwoRegister.lean ====
section
/-! DEFINITION. The two-register family, codes 8 and 12 (spec/42_two_register.md). -/

namespace Sys2Proof.Machine

/-- The family rule R81: there is no A operand, and `a_o` is 0 whatever bits 8..6 hold. -/
def twoRegisterResult (has : Bool) (op : Opcode) (w : Word32) (b c : U3) (text : List Byte) : Result where
  word := w
  decoded := .instr op (.twoRegister b c)
  ports :=
    { recognizedO := 1, opcodeO := op.code, layoutO := 1, validO := 0b01100
      aO := 0, bO := b, cO := c, rlO := 0, vlO := 0, rawO := 0 }
  text := text
  highlighter := highlightIf has w spans2R

/-- R82. -/
def execMapSegment (u : BitVec 22) (b c : U3) (s : State) : Host.Outcome State Fault Refusal :=
  completes s (twoRegisterResult s.hasHighlighter .mapSegment (encode (.mapSegment u b c)) b c (textMapSegment b c))

/-- R83: "the block computes no target and changes no program counter". -/
def execLoadProgram (u : BitVec 22) (b c : U3) (s : State) : Host.Outcome State Fault Refusal :=
  completes s (twoRegisterResult s.hasHighlighter .loadProgram (encode (.loadProgram u b c)) b c (textLoadProgram b c))

end Sys2Proof.Machine
end

