-- ==== Sys2Proof/Machine/Unrecognized.lean ====
section
/-! DEFINITION. Unrecognized words, opcode values 14 and 15 (spec/46_unrecognized.md): an ordinary result and never a
fault (R50, R120). -/

namespace Sys2Proof.Machine

/-- The family rule R92, with the `opcode_o` of the row. -/
def unrecognizedResult (has : Bool) (opcode : U4) (w : Word32) : Result where
  word := w
  decoded := .data w
  ports :=
    { recognizedO := 0, opcodeO := opcode, layoutO := 7, validO := 0b00000
      aO := 0, bO := 0, cO := 0, rlO := 0, vlO := 0, rawO := w }
  text := textData w
  highlighter := highlightIf has w spansRAW

/-- R93. -/
def execUnrecognized14 (raw : Word32) (s : State) : Host.Outcome State Fault Refusal :=
  completes s (unrecognizedResult s.hasHighlighter 14 (encode (.unrecognized14 raw)))

/-- R94. -/
def execUnrecognized15 (raw : Word32) (s : State) : Host.Outcome State Fault Refusal :=
  completes s (unrecognizedResult s.hasHighlighter 15 (encode (.unrecognized15 raw)))

end Sys2Proof.Machine
end

