-- ==== Sys2Proof/Machine/Dispatch.lean ====
section
/-! DEFINITION. One arm per constructor of `Instr`, each one direct call of its meaning. -/

namespace Sys2Proof.Machine

def exec (i : Instr) (s : State) : Host.Outcome State Fault Refusal :=
  match i with
  | .cMov u a b c => Sys2Proof.Machine.execCMov u a b c s
  | .load u a b c => Sys2Proof.Machine.execLoad u a b c s
  | .store u a b c => Sys2Proof.Machine.execStore u a b c s
  | .add u a b c => Sys2Proof.Machine.execAdd u a b c s
  | .mul u a b c => Sys2Proof.Machine.execMul u a b c s
  | .div u a b c => Sys2Proof.Machine.execDiv u a b c s
  | .nand u a b c => Sys2Proof.Machine.execNand u a b c s
  | .halt u => Sys2Proof.Machine.execHalt u s
  | .mapSegment u b c => Sys2Proof.Machine.execMapSegment u b c s
  | .unmapSegment u c => Sys2Proof.Machine.execUnmapSegment u c s
  | .output u c => Sys2Proof.Machine.execOutput u c s
  | .input u c => Sys2Proof.Machine.execInput u c s
  | .loadProgram u b c => Sys2Proof.Machine.execLoadProgram u b c s
  | .loadValue reg value => Sys2Proof.Machine.execLoadValue reg value s
  | .unrecognized14 raw => Sys2Proof.Machine.execUnrecognized14 raw s
  | .unrecognized15 raw => Sys2Proof.Machine.execUnrecognized15 raw s

end Sys2Proof.Machine
end

