-- ==== Sys2Proof/Machine/Step.lean ====
section
/-! DEFINITION. A step: one evaluation of the block on the next word of the sequence (spec/00_scope.md section 5). -/

namespace Sys2Proof.Machine

/-- The next word of the sequence is presented and evaluated. When the sequence is used up nothing is left to
evaluate, and the step changes nothing (R33, R141; log entry 10). -/
def step (s : State) : Host.Outcome State Fault Refusal :=
  match fetch s with
  | none => .next s
  | some (w, rest) => exec (decodeInstr w) rest

/-- The instruction whose bits are `w` as the next word of the loader's sequence, where `step` takes its word (log
entry 4). -/
def State.withFetchWord (s : State) (nbits w : Nat) : State := { s with pending := tableWord nbits w :: s.pending }

end Sys2Proof.Machine
end

