-- ==== Sys2Proof/Machine/Loader.lean ====
section
/-! DEFINITION. The contract of the external loader (spec/20_memory.md R25 to R27): the words it delivers for a byte stream.
What becomes of the remainder bytes is the open parameter `loader_tail_policy`; the block never receives them (log
entry 9). -/

namespace Sys2Proof.Machine

/-- The words of a byte stream, big-endian, four bytes each in stream order (R26, R27). -/
def wordsOfBytes : List Byte → List Word32
  | b0 :: b1 :: b2 :: b3 :: rest => wordOfBytes b0 b1 b2 b3 :: wordsOfBytes rest
  | _ => []

/-- The bytes after the last whole word (R27). -/
def remainderBytes : List Byte → List Byte
  | _ :: _ :: _ :: _ :: rest => remainderBytes rest
  | bytes => bytes

/-- A word sequence as a byte stream (R26). -/
def bytesOfWords (ws : List Word32) : List Byte := ws.flatMap bytesOfWord

/-- The loader hands in the words of a byte stream (R25). This is how a program reaches the machine (log entry 4). -/
def State.supplyBytes (s : State) (bytes : List Byte) : State := State.supply s (wordsOfBytes bytes)

end Sys2Proof.Machine
end

