-- ==== Sys2Proof/Machine/Flags.lean ====
section
/-! DEFINITION. The block has no flags and no instruction writes one (spec/10_state.md R20). What it has are one-bit
outputs that say how a word classifies: `recognized_o` and the bits of `valid_o`. -/

namespace Sys2Proof.Machine

/-- The shape of a decode result; an unrecognized word has none (R16, R61). -/
def shapeOf : Decoded → Option Shape
  | .instr op _ => some (layoutFor op)
  | .data _ => none

/-- `recognized_o` (R65). -/
def recognizedBit (w : Word32) : BitVec 1 := if xOp w ≤ 13#4 then 1 else 0

/-- `valid_o`: bit 4 is for `a_o`, bit 3 `b_o`, bit 2 `c_o`, bit 1 `rl_o`, bit 0 `vl_o` (R67). -/
def validBits : Option Shape → BitVec 5
  | some .threeRegister => 0b11100
  | some .twoRegister => 0b01100
  | some .oneRegister => 0b00100
  | some .halt => 0b00000
  | some .immediate => 0b00011
  | none => 0b00000

end Sys2Proof.Machine
end

