-- ==== Sys2Proof/Machine/Operands.lean ====
section
/-! DEFINITION. The operand outputs. The operand forms of the block are the fields RA, RB, RC, RL and VL, taken in place
(spec/30_encoding.md R47, R48); there are no other forms. -/

namespace Sys2Proof.Machine

/-- An operand output carries its field when its valid bit is 1, and zero when it is 0 (R68). -/
def gate {n : Nat} (valid : Bool) (field : BitVec n) : BitVec n := if valid then field else 0

/-- `a_o` (R68). -/
def aOut (valid : BitVec 5) (w : Word32) : U3 := gate (valid.getLsbD 4) (xRa w)

/-- `b_o` (R68). -/
def bOut (valid : BitVec 5) (w : Word32) : U3 := gate (valid.getLsbD 3) (xRb w)

/-- `c_o` (R68). -/
def cOut (valid : BitVec 5) (w : Word32) : U3 := gate (valid.getLsbD 2) (xRc w)

/-- `rl_o` (R68). -/
def rlOut (valid : BitVec 5) (w : Word32) : U3 := gate (valid.getLsbD 1) (xRl w)

/-- `vl_o` (R68). -/
def vlOut (valid : BitVec 5) (w : Word32) : U25 := gate (valid.getLsbD 0) (xVl w)

/-- `raw_o` (R69). -/
def rawOut (recognized : BitVec 1) (w : Word32) : Word32 := if recognized = 0 then w else 0

end Sys2Proof.Machine
end

