-- ==== Sys2Proof/Machine/PortMap.lean ====
section
/-! DEFINITION. The output ports as a combinational function of `word_i` (spec/40_decoder_datapath.md R64 to R69). -/

namespace Sys2Proof.Machine

/-- `layout_o` (R66). -/
def layoutTag : Option Shape → BitVec 3
  | some .threeRegister => 0
  | some .twoRegister => 1
  | some .oneRegister => 2
  | some .halt => 3
  | some .immediate => 4
  | none => 7

/-- The decode ports for the value on `word_i` (R64 to R69). -/
def portsOf (w : Word32) : Ports :=
  let shape := shapeOf (decode w)
  let valid := validBits shape
  { recognizedO := recognizedBit w
    opcodeO := xOp w
    layoutO := layoutTag shape
    validO := valid
    aO := aOut valid w
    bO := bOut valid w
    cO := cOut valid w
    rlO := rlOut valid w
    vlO := vlOut valid w
    rawO := rawOut (recognizedBit w) w }

/-- What the decode ports carry: at every moment the function of the current `word_i` (R64), also during and after a
reset of the system around the block (R24, R134). -/
def State.ports (s : State) : Ports := portsOf s.wordI

end Sys2Proof.Machine
end

