-- ==== Sys2Proof/Machine/Block.lean ====
section
/-! DEFINITION. The whole block as one function of a word: decode result, ports, text and highlighter, all computed from
the one `decode` (spec/40_decoder_datapath.md R63), and its use on a batch (spec/20_memory.md R33). -/

namespace Sys2Proof.Machine

/-- Everything the block answers for a word. It depends on the word and on the build-time parameter alone (R9, R64). -/
def answer (has : Bool) (w : Word32) : Result where
  word := w
  decoded := decode w
  ports := portsOf w
  text := render w
  highlighter := highlightIf has w (spans w)

/-- What stands on all outputs of the block: at every moment the function of the current `word_i` (R64), also during
and after a reset of the system around the block (R24, R134). -/
def State.outputs (s : State) : Result := answer s.hasHighlighter s.wordI

/-- `decode_seq` (R33). -/
def decodeSeq (ws : List Word32) : List Decoded := ws.map decode

/-- The texts of a batch, in input order (R33). -/
def renderSeq (ws : List Word32) : List (List Byte) := ws.map render

/-- The highlighter's results of a batch, in input order (R33). -/
def highlightSeq (ws : List Word32) : List (List Byte × List Span) := ws.map highlight

end Sys2Proof.Machine
end

