-- ==== Sys2Proof/Machine/Report.lean ====
section
/-! DEFINITION. The contract of the external entry point (spec/20_memory.md R28): one line per input word with four items.
How the items are laid out is the open parameter `report_format` (log entry 8). -/

namespace Sys2Proof.Machine

/-- The four items of the line of word number `k`. The binary rendering is optional, and needs the highlighter
(R28, R118); `shown` is the palette it is shown with. -/
def reportItems (has : Bool) (shown : Option Palette) (k : Nat) (w : Word32) : ReportItems where
  index := k
  word := w
  binary := if has then shown.map fun palette => annotatedText palette w else none
  mnemonic := render w

/-- The report: one line per input word, in input order (R28, R33). -/
def reportLines (format : ReportFormat) (has : Bool) (shown : Option Palette) (ws : List Word32) : List (List Byte) :=
  ws.mapIdx fun k w => format (reportItems has shown k w)

end Sys2Proof.Machine
end

