-- ==== Sys2Proof/Safety.lean ====
section
/-! DEFINITION. What counts as a safe state and a safe run, in the terms the statements use. -/

namespace Sys2Proof.Machine

/-- The step has an outcome value: no fault and no refusal (spec/60_exceptions.md R119). -/
def stepsSafely (s : State) : Prop := ∃ t, step s = .next t

/-- Every result the consumer holds is the block's answer for the word it is paired with, under the machine's
build-time parameter: nothing but the word decided it (R9, R137, R139). -/
def State.Faithful (s : State) : Prop := ∀ r ∈ s.results, r = answer s.hasHighlighter r.word

end Sys2Proof.Machine
end

