-- ==== Sys2Proof/Certificates/Slice0/Obligations.lean ====
section
/-! DEFINITION. The statements for the provers, one `def Obligations.<Name> : Prop` each. `Sys2Proof.Expected` holds what
the rules of spec/ say a word's ports and spans are, written from bit slices of the word and not from the model. -/

namespace Sys2Proof.Expected

open Sys2Proof.Machine

/-- The ports of the family rule R73. -/
def ports3R (code : U4) (w : Word32) : Ports :=
  { recognizedO := 1, opcodeO := code, layoutO := 0, validO := 0b11100
    aO := w.extractLsb' 6 3, bO := w.extractLsb' 3 3, cO := w.extractLsb' 0 3, rlO := 0, vlO := 0, rawO := 0 }

/-- The ports of the family rule R81. -/
def ports2R (code : U4) (w : Word32) : Ports :=
  { recognizedO := 1, opcodeO := code, layoutO := 1, validO := 0b01100
    aO := 0, bO := w.extractLsb' 3 3, cO := w.extractLsb' 0 3, rlO := 0, vlO := 0, rawO := 0 }

/-- The ports of the family rule R84. -/
def ports1R (code : U4) (w : Word32) : Ports :=
  { recognizedO := 1, opcodeO := code, layoutO := 2, validO := 0b00100
    aO := 0, bO := 0, cO := w.extractLsb' 0 3, rlO := 0, vlO := 0, rawO := 0 }

/-- The ports of R89. -/
def portsH : Ports :=
  { recognizedO := 1, opcodeO := 7, layoutO := 3, validO := 0b00000
    aO := 0, bO := 0, cO := 0, rlO := 0, vlO := 0, rawO := 0 }

/-- The ports of R91. -/
def portsIMM (w : Word32) : Ports :=
  { recognizedO := 1, opcodeO := 13, layoutO := 4, validO := 0b00011
    aO := 0, bO := 0, cO := 0, rlO := w.extractLsb' 25 3, vlO := w.extractLsb' 0 25, rawO := 0 }

/-- The ports of the family rule R92. -/
def portsRAW (code : U4) (w : Word32) : Ports :=
  { recognizedO := 0, opcodeO := code, layoutO := 7, validO := 0b00000
    aO := 0, bO := 0, cO := 0, rlO := 0, vlO := 0, rawO := w }

/-- The spans of R73. -/
def spans3R : List Span := [⟨31, 28, .opcode⟩, ⟨27, 9, .unused⟩, ⟨8, 6, .regA⟩, ⟨5, 3, .regB⟩, ⟨2, 0, .regC⟩]

/-- The spans of R81. -/
def spans2R : List Span := [⟨31, 28, .opcode⟩, ⟨27, 6, .unused⟩, ⟨5, 3, .regB⟩, ⟨2, 0, .regC⟩]

/-- The spans of R84. -/
def spans1R : List Span := [⟨31, 28, .opcode⟩, ⟨27, 3, .unused⟩, ⟨2, 0, .regC⟩]

/-- The spans of R89. -/
def spansH : List Span := [⟨31, 28, .opcode⟩, ⟨27, 0, .unused⟩]

/-- The spans of R91. -/
def spansIMM : List Span := [⟨31, 28, .opcode⟩, ⟨27, 25, .regL⟩, ⟨24, 0, .value⟩]

/-- The spans of R92. -/
def spansRAW : List Span := [⟨31, 0, .raw⟩]

/-- The state after one evaluation of the word `w` with the given decode result, ports, text and spans: the word
stands
on `word_i`, the consumer has read one result more, and nothing else has changed. The highlighter's part is there
exactly with `HAS_HIGHLIGHTER` (R118), with `bin_o = word_i` (R105) and the entries of `class_o` (R115). -/
def after (s : State) (w : Word32) (d : Decoded) (p : Ports) (text : List Byte) (sps : List Span) : State :=
  { hasHighlighter := s.hasHighlighter
    wordI := w
    pending := s.pending
    results := s.results ++
      [{ word := w
         decoded := d
         ports := p
         text := text
         highlighter :=
           if s.hasHighlighter then
             some { binO := w, classO := classVector sps, digits := binaryDigits w, spans := sps }
           else none }] }

/-- The bits of a word that belong to a field of the shape, from the formats R39 to R43. -/
def usedMask : Shape → Word32
  | .threeRegister => 0xF00001FF
  | .twoRegister => 0xF000003F
  | .oneRegister => 0xF0000007
  | .halt => 0xF0000000
  | .immediate => 0xFFFFFFFF

/-- The table of `class_o` by shape in R115: the entry of bit position `i`. -/
def classRow (shape : Option Shape) (i : Nat) : BitVec 3 :=
  match shape with
  | some .threeRegister => if 28 ≤ i then 1 else if 9 ≤ i then 2 else if 6 ≤ i then 3 else if 3 ≤ i then 4 else 5
  | some .twoRegister => if 28 ≤ i then 1 else if 6 ≤ i then 2 else if 3 ≤ i then 4 else 5
  | some .oneRegister => if 28 ≤ i then 1 else if 3 ≤ i then 2 else 5
  | some .halt => if 28 ≤ i then 1 else 2
  | some .immediate => if 28 ≤ i then 1 else if 25 ≤ i then 6 else 7
  | none => 0

/-- A field's bit range (R6). -/
def fieldRange (f : Field) (sp : Span) : Prop := sp.lo = f.lsb ∧ sp.hi = f.lsb + f.width - 1

end Sys2Proof.Expected

open Sys2Proof Sys2Proof.Machine

/-- The six field descriptors have the widths and positions of the field table (R19). -/
def Obligations.FieldTableHasTheSixFields : Prop :=
  (fieldOP.width = 4 ∧ fieldOP.lsb = 28) ∧ (fieldRA.width = 3 ∧ fieldRA.lsb = 6) ∧
  (fieldRB.width = 3 ∧ fieldRB.lsb = 3) ∧ (fieldRC.width = 3 ∧ fieldRC.lsb = 0) ∧
  (fieldRL.width = 3 ∧ fieldRL.lsb = 25) ∧ (fieldVL.width = 25 ∧ fieldVL.lsb = 0) ∧
  fieldRC.lsb + fieldRC.width = fieldRB.lsb ∧ fieldRB.lsb + fieldRB.width = fieldRA.lsb

/-- Extraction of any field from any word is the bit slice and lies below 2^width (R56). -/
def Obligations.ExtractionIsTheSliceAndInRange : Prop :=
  ∀ (f : Field) (w : Word32),
    extract f w < 2 ^ f.width ∧ extract f w = (w.extractLsb' f.lsb f.width).toNat

/-- The six extractions are the shifts, masks and slices of the table (R58). -/
def Obligations.SixExtractionsAreShiftMaskAndSlice : Prop :=
  ∀ w : Word32,
    ((xOp w).toNat = (w.toNat >>> 28) &&& 0xF ∧ xOp w = w.extractLsb' 28 4) ∧
    ((xRa w).toNat = (w.toNat >>> 6) &&& 0x7 ∧ xRa w = w.extractLsb' 6 3) ∧
    ((xRb w).toNat = (w.toNat >>> 3) &&& 0x7 ∧ xRb w = w.extractLsb' 3 3) ∧
    ((xRc w).toNat = w.toNat &&& 0x7 ∧ xRc w = w.extractLsb' 0 3) ∧
    ((xRl w).toNat = (w.toNat >>> 25) &&& 0x7 ∧ xRl w = w.extractLsb' 25 3) ∧
    ((xVl w).toNat = w.toNat &&& 0x1FFFFFF ∧ xVl w = w.extractLsb' 0 25)

/-- The classifier names the opcode of codes 0 to 13 and answers unrecognized with the whole word for 14 and 15
(R59). -/
def Obligations.ClassifyFollowsTheOpcodeTable : Prop :=
  (∀ (w : Word32) (k : Fin 14),
    (w.extractLsb' 28 4).toNat = k.val →
      classify w =
        .known (([.cMov, .load, .store, .add, .mul, .div, .nand, .halt, .mapSegment, .unmapSegment, .output, .input,
          .loadProgram, .loadValue] : List Opcode)[k.val]'k.isLt)) ∧
  (∀ w : Word32, 14 ≤ (w.extractLsb' 28 4).toNat → classify w = .unrecognized w)

/-- The opcode, the shape and the format are chosen by the mask 0xF0000000 and nothing else (R53). -/
def Obligations.SelectionUsesTheOpcodeFieldOnly : Prop :=
  (∀ (w : Word32) (op : Opcode),
    classify w = .known op ↔ w &&& 0xF0000000#32 = op.code.setWidth 32 <<< 28) ∧
  (∀ w : Word32,
    classify w = .unrecognized w ↔
      (w &&& 0xF0000000#32 = 0xE0000000#32 ∨ w &&& 0xF0000000#32 = 0xF0000000#32)) ∧
  (∀ w w' : Word32, w &&& 0xF0000000#32 = w' &&& 0xF0000000#32 →
    (∀ op, classify w = .known op ↔ classify w' = .known op) ∧
    shapeOf (decode w) = shapeOf (decode w') ∧ spans w = spans w')

/-- Every opcode has the shape of the shape table (R60). -/
def Obligations.LayoutForFollowsTheShapeTable : Prop :=
  (∀ op ∈ ([.cMov, .load, .store, .add, .mul, .div, .nand] : List Opcode), layoutFor op = .threeRegister) ∧
  (∀ op ∈ ([.mapSegment, .loadProgram] : List Opcode), layoutFor op = .twoRegister) ∧
  (∀ op ∈ ([.unmapSegment, .output, .input] : List Opcode), layoutFor op = .oneRegister) ∧
  layoutFor .halt = .halt ∧ layoutFor .loadValue = .immediate

/-- decode is the opcode with the fields of its shape, cut out of the word, and Data for an unrecognized word (R62,
R63). -/
def Obligations.DecodeTakesExactlyTheFieldsOfTheShape : Prop :=
  (∀ (w : Word32) (op : Opcode), classify w = .known op →
    decode w = .instr op (match layoutFor op with
      | .threeRegister => .threeRegister (w.extractLsb' 6 3) (w.extractLsb' 3 3) (w.extractLsb' 0 3)
      | .twoRegister => .twoRegister (w.extractLsb' 3 3) (w.extractLsb' 0 3)
      | .oneRegister => .oneRegister (w.extractLsb' 0 3)
      | .halt => .halt
      | .immediate => .immediate (w.extractLsb' 25 3) (w.extractLsb' 0 25))) ∧
  (∀ w raw : Word32, classify w = .unrecognized raw → decode w = .data w) ∧
  (∀ w : Word32, (decode w).consistent = true)

/-- Decoding the word of any well-formed instruction gives that instruction back, with every operand. -/
def Obligations.DecodingAnEncodedInstructionGivesItBack : Prop :=
  ∀ i : Instr, i.wellFormed = true → decodeInstr (encode i) = i ∧ decode (encode i) = i.toDecoded

/-- Every one of the 2^32 words is the word of exactly one well-formed instruction (R51). -/
def Obligations.EveryWordIsExactlyOneInstruction : Prop :=
  ∀ w : Word32,
    (decodeInstr w).wellFormed = true ∧ encode (decodeInstr w) = w ∧ (decodeInstr w).toDecoded = decode w ∧
    ∀ i : Instr, i.wellFormed = true → encode i = w → i = decodeInstr w

/-- The byte decoder reads an instruction laid out big-endian (the byte order of R26), and rejects fewer than four bytes
by name. The rejection is the model's choice and not the spec's (log entry 9): R27 leaves remainder bytes to the open
parameter loader_tail_policy. The clause on `decodeTableWord` is the model's choice too (log entry 15). -/
def Obligations.ByteDecodingIsBigEndianAndTotal : Prop :=
  (∀ (i : Instr) (rest : List Byte), i.wellFormed = true →
    decodeBytes (encodeBytes i ++ rest) = .ok (i, rest) ∧ decodeTableWord 32 (encode i).toNat = some i) ∧
  (∀ bytes : List Byte, bytes.length < 4 → decodeBytes bytes = .error (.remainder bytes.length))

/-- Words written out bit by bit decode to the instructions they stand for. -/
def Obligations.WrittenOutWordsDecode : Prop :=
  decodeInstr 0b0000_0000000000000000000_011_010_001#32 = .cMov 0 3 2 1 ∧
  decodeInstr 0b0011_1010101111001101111_001_010_011#32 = .add 0b1010101111001101111 1 2 3 ∧
  decodeInstr 0b1000_0000000000000000000000_010_101#32 = .mapSegment 0 2 5 ∧
  decodeInstr 0b1010_0000000000000000000000000_011#32 = .output 0 3 ∧
  decodeInstr 0b0111_1010101111001101111011110000#32 = .halt 0b1010101111001101111011110000 ∧
  decodeInstr 0b1101_011_0100110001001011010000000#32 = .loadValue 3 10000000 ∧
  decodeInstr 0xE0000000#32 = .unrecognized14 0xE0000000#32 ∧
  decodeInstr 0xF00001FF#32 = .unrecognized15 0xF00001FF#32

/-- The corner cases of the datapath have the values of the table (R72). -/
def Obligations.DatapathCornerCases : Prop :=
  decode 0x00000000#32 = .instr .cMov (.threeRegister 0 0 0) ∧
  (decode 0xFFFFFFFF#32 = .data 0xFFFFFFFF#32 ∧ xOp 0xFFFFFFFF#32 = 15 ∧ xRa 0xFFFFFFFF#32 = 7 ∧
    xRb 0xFFFFFFFF#32 = 7 ∧ xRc 0xFFFFFFFF#32 = 7 ∧ xRl 0xFFFFFFFF#32 = 7 ∧ xVl 0xFFFFFFFF#32 = 33554431 ∧
    (portsOf 0xFFFFFFFF#32).aO = 0 ∧ (portsOf 0xFFFFFFFF#32).bO = 0 ∧ (portsOf 0xFFFFFFFF#32).cO = 0 ∧
    (portsOf 0xFFFFFFFF#32).rlO = 0 ∧ (portsOf 0xFFFFFFFF#32).vlO = 0) ∧
  decode 0xDFFFFFFF#32 = .instr .loadValue (.immediate 7 33554431) ∧
  decode 0xE0000000#32 = .data 0xE0000000#32 ∧
  decode 0x30000200#32 = .instr .add (.threeRegister 0 0 0) ∧
  decode 0x02000000#32 = .instr .cMov (.threeRegister 0 0 0) ∧
  decode 0xD0000100#32 = .instr .loadValue (.immediate 0 256) ∧
  decode 0x300001FF#32 = .instr .add (.threeRegister 7 7 7)

/-- opcode_o is the OP field of every word, and recognized_o is 0 exactly for 14 and 15 (R65). -/
def Obligations.RecognizedAndOpcodePortsFollowTheOpField : Prop :=
  ∀ w : Word32,
    (portsOf w).opcodeO = w.extractLsb' 28 4 ∧
    ((portsOf w).recognizedO = 1#1 ↔ (w.extractLsb' 28 4).toNat ≤ 13) ∧
    ((portsOf w).recognizedO = 0#1 ↔ ((portsOf w).opcodeO = 14#4 ∨ (portsOf w).opcodeO = 15#4)) ∧
    (portsOf w).recognizedO = BitVec.ofBool (!(w.getLsbD 31 && w.getLsbD 30 && w.getLsbD 29)) ∧
    ((portsOf w).recognizedO = 1#1 ↔ w.toNat < 0xE0000000) ∧
    ((portsOf w).recognizedO = 1#1 → ∃ op, classify w = .known op ∧ op.code = (portsOf w).opcodeO)

/-- layout_o is the tag of the decoded shape, and 5 and 6 never appear (R66). -/
def Obligations.LayoutPortIsTheShapeTag : Prop :=
  ∀ w : Word32,
    (portsOf w).layoutO =
      (match decode w with
        | .instr op _ =>
          (match layoutFor op with
            | .threeRegister => 0#3
            | .twoRegister => 1#3
            | .oneRegister => 2#3
            | .halt => 3#3
            | .immediate => 4#3)
        | .data _ => 7#3) ∧
    (portsOf w).layoutO ≠ 5#3 ∧ (portsOf w).layoutO ≠ 6#3

/-- valid_o is the row of the table that layout_o names (R67). -/
def Obligations.ValidPortFollowsTheLayoutPort : Prop :=
  ∀ w : Word32,
    ((portsOf w).layoutO, (portsOf w).validO) ∈
      ([(0, 0b11100), (1, 0b01100), (2, 0b00100), (3, 0b00000), (4, 0b00011), (7, 0b00000)] :
        List (BitVec 3 × BitVec 5))

/-- Each operand output is its field when its valid bit is 1 and zero when it is 0, and together they are the
layout's payload (R68). -/
def Obligations.OperandPortsCarryThePayload : Prop :=
  ∀ w : Word32,
    (portsOf w).aO = (if (portsOf w).validO.getLsbD 4 then w.extractLsb' 6 3 else 0) ∧
    (portsOf w).bO = (if (portsOf w).validO.getLsbD 3 then w.extractLsb' 3 3 else 0) ∧
    (portsOf w).cO = (if (portsOf w).validO.getLsbD 2 then w.extractLsb' 0 3 else 0) ∧
    (portsOf w).rlO = (if (portsOf w).validO.getLsbD 1 then w.extractLsb' 25 3 else 0) ∧
    (portsOf w).vlO = (if (portsOf w).validO.getLsbD 0 then w.extractLsb' 0 25 else 0) ∧
    ((portsOf w).aO, (portsOf w).bO, (portsOf w).cO, (portsOf w).rlO, (portsOf w).vlO) =
      (match decode w with
        | .instr _ (.threeRegister a b c) => (a, b, c, 0#3, 0#25)
        | .instr _ (.twoRegister b c) => (0#3, b, c, 0#3, 0#25)
        | .instr _ (.oneRegister c) => (0#3, 0#3, c, 0#3, 0#25)
        | .instr _ .halt => (0#3, 0#3, 0#3, 0#3, 0#25)
        | .instr _ (.immediate reg value) => (0#3, 0#3, 0#3, reg, value)
        | .data _ => (0#3, 0#3, 0#3, 0#3, 0#25))

/-- raw_o is the word when it is unrecognized and zero when it is recognized (R69). -/
def Obligations.RawPortCarriesUnrecognizedWords : Prop :=
  ∀ w : Word32,
    ((portsOf w).recognizedO = 0#1 → (portsOf w).rawO = w) ∧ ((portsOf w).recognizedO = 1#1 → (portsOf w).rawO = 0)

/-- The port tuple is a function of the decode result, and different decode results give different tuples (R70). -/
def Obligations.PortsAndDecodeResultDetermineEachOther : Prop :=
  (∀ w w' : Word32, portsOf w = portsOf w' ↔ decode w = decode w') ∧
  (∀ w : Word32, (portsOf w).recognizedO = 0#1 → (portsOf w).opcodeO = (portsOf w).rawO.extractLsb' 28 4) ∧
  (∀ w w' : Word32, (portsOf w).recognizedO = 1#1 → (portsOf w').recognizedO = 1#1 →
    (portsOf w).opcodeO = (portsOf w').opcodeO →
      (portsOf w).layoutO = (portsOf w').layoutO ∧ (portsOf w).validO = (portsOf w').validO)

/-- Words that differ only in unused bits have the same decode result, ports, text and spans (R104). -/
def Obligations.UnusedBitsReachNeitherPortsNorText : Prop :=
  (∀ (op : Opcode) (w w' : Word32), classify w = .known op → classify w' = .known op →
    w &&& Expected.usedMask (layoutFor op) = w' &&& Expected.usedMask (layoutFor op) →
      decode w = decode w' ∧ portsOf w = portsOf w' ∧ render w = render w' ∧ spans w = spans w') ∧
  (∀ w w' : Word32, classify w = .unrecognized w → classify w' = .unrecognized w' → render w = render w' → w = w')

/-- CMov: a word with code 0 decodes, drives the ports, reads as text and is cut into spans as its rule says
(R74, with the family rule R73). `Expected.after` says how the evaluation stands in the
model's environment (log entries 1 and 5); the rule says what is in it. -/
def Obligations.CMovAnswersAsItsRuleSays : Prop :=
  ∀ (w : Word32) (s : State), w &&& 0xF0000000#32 = 0x00000000#32 →
    decodeInstr w = .cMov (w.extractLsb' 9 19) (w.extractLsb' 6 3) (w.extractLsb' 3 3) (w.extractLsb' 0 3) ∧
    exec (.cMov (w.extractLsb' 9 19) (w.extractLsb' 6 3) (w.extractLsb' 3 3) (w.extractLsb' 0 3)) s =
      .next (Expected.after s w
        (.instr .cMov (.threeRegister (w.extractLsb' 6 3) (w.extractLsb' 3 3) (w.extractLsb' 0 3))) (Expected.ports3R 0 w)
        (ascii "if (r" ++ dec (w.extractLsb' 0 3).toNat ++ ascii " != 0) r" ++
          dec (w.extractLsb' 6 3).toNat ++ ascii " := r" ++ dec (w.extractLsb' 3 3).toNat ++ ascii ";")
        Expected.spans3R)

/-- Load: a word with code 1 decodes, drives the ports, reads as text and is cut into spans as its rule says
(R75, with the family rule R73). `Expected.after` says how the evaluation stands in the
model's environment (log entries 1 and 5); the rule says what is in it. -/
def Obligations.LoadAnswersAsItsRuleSays : Prop :=
  ∀ (w : Word32) (s : State), w &&& 0xF0000000#32 = 0x10000000#32 →
    decodeInstr w = .load (w.extractLsb' 9 19) (w.extractLsb' 6 3) (w.extractLsb' 3 3) (w.extractLsb' 0 3) ∧
    exec (.load (w.extractLsb' 9 19) (w.extractLsb' 6 3) (w.extractLsb' 3 3) (w.extractLsb' 0 3)) s =
      .next (Expected.after s w
        (.instr .load (.threeRegister (w.extractLsb' 6 3) (w.extractLsb' 3 3) (w.extractLsb' 0 3))) (Expected.ports3R 1 w)
        (ascii "r" ++ dec (w.extractLsb' 6 3).toNat ++ ascii " := m[r" ++
          dec (w.extractLsb' 3 3).toNat ++ ascii "][r" ++ dec (w.extractLsb' 0 3).toNat ++ ascii "];")
        Expected.spans3R)

/-- Store: a word with code 2 decodes, drives the ports, reads as text and is cut into spans as its rule says
(R76, with the family rule R73). `Expected.after` says how the evaluation stands in the
model's environment (log entries 1 and 5); the rule says what is in it. -/
def Obligations.StoreAnswersAsItsRuleSays : Prop :=
  ∀ (w : Word32) (s : State), w &&& 0xF0000000#32 = 0x20000000#32 →
    decodeInstr w = .store (w.extractLsb' 9 19) (w.extractLsb' 6 3) (w.extractLsb' 3 3) (w.extractLsb' 0 3) ∧
    exec (.store (w.extractLsb' 9 19) (w.extractLsb' 6 3) (w.extractLsb' 3 3) (w.extractLsb' 0 3)) s =
      .next (Expected.after s w
        (.instr .store (.threeRegister (w.extractLsb' 6 3) (w.extractLsb' 3 3) (w.extractLsb' 0 3))) (Expected.ports3R 2 w)
        (ascii "m[r" ++ dec (w.extractLsb' 6 3).toNat ++ ascii "][r" ++
          dec (w.extractLsb' 3 3).toNat ++ ascii "] := r" ++ dec (w.extractLsb' 0 3).toNat ++ ascii ";")
        Expected.spans3R)

/-- Add: a word with code 3 decodes, drives the ports, reads as text and is cut into spans as its rule says
(R77, with the family rule R73). `Expected.after` says how the evaluation stands in the
model's environment (log entries 1 and 5); the rule says what is in it. -/
def Obligations.AddAnswersAsItsRuleSays : Prop :=
  ∀ (w : Word32) (s : State), w &&& 0xF0000000#32 = 0x30000000#32 →
    decodeInstr w = .add (w.extractLsb' 9 19) (w.extractLsb' 6 3) (w.extractLsb' 3 3) (w.extractLsb' 0 3) ∧
    exec (.add (w.extractLsb' 9 19) (w.extractLsb' 6 3) (w.extractLsb' 3 3) (w.extractLsb' 0 3)) s =
      .next (Expected.after s w
        (.instr .add (.threeRegister (w.extractLsb' 6 3) (w.extractLsb' 3 3) (w.extractLsb' 0 3))) (Expected.ports3R 3 w)
        (ascii "r" ++ dec (w.extractLsb' 6 3).toNat ++ ascii " := r" ++
          dec (w.extractLsb' 3 3).toNat ++ ascii " + r" ++ dec (w.extractLsb' 0 3).toNat ++ ascii ";")
        Expected.spans3R)

/-- Mul: a word with code 4 decodes, drives the ports, reads as text and is cut into spans as its rule says
(R78, with the family rule R73). `Expected.after` says how the evaluation stands in the
model's environment (log entries 1 and 5); the rule says what is in it. -/
def Obligations.MulAnswersAsItsRuleSays : Prop :=
  ∀ (w : Word32) (s : State), w &&& 0xF0000000#32 = 0x40000000#32 →
    decodeInstr w = .mul (w.extractLsb' 9 19) (w.extractLsb' 6 3) (w.extractLsb' 3 3) (w.extractLsb' 0 3) ∧
    exec (.mul (w.extractLsb' 9 19) (w.extractLsb' 6 3) (w.extractLsb' 3 3) (w.extractLsb' 0 3)) s =
      .next (Expected.after s w
        (.instr .mul (.threeRegister (w.extractLsb' 6 3) (w.extractLsb' 3 3) (w.extractLsb' 0 3))) (Expected.ports3R 4 w)
        (ascii "r" ++ dec (w.extractLsb' 6 3).toNat ++ ascii " := r" ++
          dec (w.extractLsb' 3 3).toNat ++ ascii " * r" ++ dec (w.extractLsb' 0 3).toNat ++ ascii ";")
        Expected.spans3R)

/-- Div: a word with code 5 decodes, drives the ports, reads as text and is cut into spans as its rule says
(R79, with the family rule R73). `Expected.after` says how the evaluation stands in the
model's environment (log entries 1 and 5); the rule says what is in it. -/
def Obligations.DivAnswersAsItsRuleSays : Prop :=
  ∀ (w : Word32) (s : State), w &&& 0xF0000000#32 = 0x50000000#32 →
    decodeInstr w = .div (w.extractLsb' 9 19) (w.extractLsb' 6 3) (w.extractLsb' 3 3) (w.extractLsb' 0 3) ∧
    exec (.div (w.extractLsb' 9 19) (w.extractLsb' 6 3) (w.extractLsb' 3 3) (w.extractLsb' 0 3)) s =
      .next (Expected.after s w
        (.instr .div (.threeRegister (w.extractLsb' 6 3) (w.extractLsb' 3 3) (w.extractLsb' 0 3))) (Expected.ports3R 5 w)
        (ascii "r" ++ dec (w.extractLsb' 6 3).toNat ++ ascii " := r" ++
          dec (w.extractLsb' 3 3).toNat ++ ascii " / r" ++ dec (w.extractLsb' 0 3).toNat ++ ascii ";")
        Expected.spans3R)

/-- Nand: a word with code 6 decodes, drives the ports, reads as text and is cut into spans as its rule says
(R80, with the family rule R73). `Expected.after` says how the evaluation stands in the
model's environment (log entries 1 and 5); the rule says what is in it. -/
def Obligations.NandAnswersAsItsRuleSays : Prop :=
  ∀ (w : Word32) (s : State), w &&& 0xF0000000#32 = 0x60000000#32 →
    decodeInstr w = .nand (w.extractLsb' 9 19) (w.extractLsb' 6 3) (w.extractLsb' 3 3) (w.extractLsb' 0 3) ∧
    exec (.nand (w.extractLsb' 9 19) (w.extractLsb' 6 3) (w.extractLsb' 3 3) (w.extractLsb' 0 3)) s =
      .next (Expected.after s w
        (.instr .nand (.threeRegister (w.extractLsb' 6 3) (w.extractLsb' 3 3) (w.extractLsb' 0 3))) (Expected.ports3R 6 w)
        (ascii "r" ++ dec (w.extractLsb' 6 3).toNat ++ ascii " := r" ++
          dec (w.extractLsb' 3 3).toNat ++ ascii " nand r" ++ dec (w.extractLsb' 0 3).toNat ++ ascii ";")
        Expected.spans3R)

/-- Halt: a word with code 7 decodes without operands, reads as halt, and the machine goes on
(R89). `Expected.after` says how the evaluation stands in the
model's environment (log entries 1 and 5); the rule says what is in it. -/
def Obligations.HaltAnswersAsItsRuleSays : Prop :=
  ∀ (w : Word32) (s : State), w &&& 0xF0000000#32 = 0x70000000#32 →
    decodeInstr w = .halt (w.extractLsb' 0 28) ∧
    exec (.halt (w.extractLsb' 0 28)) s =
      .next (Expected.after s w
        (.instr .halt .halt) Expected.portsH (ascii "halt")
        Expected.spansH)

/-- MapSegment: a word with code 8 decodes, drives the ports, reads as text and is cut into spans as its rule says
(R82, with the family rule R81). `Expected.after` says how the evaluation stands in the
model's environment (log entries 1 and 5); the rule says what is in it. -/
def Obligations.MapSegmentAnswersAsItsRuleSays : Prop :=
  ∀ (w : Word32) (s : State), w &&& 0xF0000000#32 = 0x80000000#32 →
    decodeInstr w = .mapSegment (w.extractLsb' 6 22) (w.extractLsb' 3 3) (w.extractLsb' 0 3) ∧
    exec (.mapSegment (w.extractLsb' 6 22) (w.extractLsb' 3 3) (w.extractLsb' 0 3)) s =
      .next (Expected.after s w
        (.instr .mapSegment (.twoRegister (w.extractLsb' 3 3) (w.extractLsb' 0 3))) (Expected.ports2R 8 w)
        (ascii "r" ++ dec (w.extractLsb' 3 3).toNat ++
          ascii " := map segment (r" ++ dec (w.extractLsb' 0 3).toNat ++ ascii " words);")
        Expected.spans2R)

/-- UnmapSegment: a word with code 9 decodes, drives the ports, reads as text and is cut into spans as its rule says
(R85, with the family rule R84). `Expected.after` says how the evaluation stands in the
model's environment (log entries 1 and 5); the rule says what is in it. -/
def Obligations.UnmapSegmentAnswersAsItsRuleSays : Prop :=
  ∀ (w : Word32) (s : State), w &&& 0xF0000000#32 = 0x90000000#32 →
    decodeInstr w = .unmapSegment (w.extractLsb' 3 25) (w.extractLsb' 0 3) ∧
    exec (.unmapSegment (w.extractLsb' 3 25) (w.extractLsb' 0 3)) s =
      .next (Expected.after s w
        (.instr .unmapSegment (.oneRegister (w.extractLsb' 0 3))) (Expected.ports1R 9 w)
        (ascii "unmap r" ++ dec (w.extractLsb' 0 3).toNat ++ ascii ";")
        Expected.spans1R)

/-- Output: a word with code 10 decodes, drives the ports, reads as text and is cut into spans as its rule says
(R86, with the family rule R84). `Expected.after` says how the evaluation stands in the
model's environment (log entries 1 and 5); the rule says what is in it. -/
def Obligations.OutputAnswersAsItsRuleSays : Prop :=
  ∀ (w : Word32) (s : State), w &&& 0xF0000000#32 = 0xA0000000#32 →
    decodeInstr w = .output (w.extractLsb' 3 25) (w.extractLsb' 0 3) ∧
    exec (.output (w.extractLsb' 3 25) (w.extractLsb' 0 3)) s =
      .next (Expected.after s w
        (.instr .output (.oneRegister (w.extractLsb' 0 3))) (Expected.ports1R 10 w)
        (ascii "output r" ++ dec (w.extractLsb' 0 3).toNat ++ ascii ";")
        Expected.spans1R)

/-- Input: a word with code 11 decodes, drives the ports, reads as text and is cut into spans as its rule says
(R87, with the family rule R84). `Expected.after` says how the evaluation stands in the
model's environment (log entries 1 and 5); the rule says what is in it. -/
def Obligations.InputAnswersAsItsRuleSays : Prop :=
  ∀ (w : Word32) (s : State), w &&& 0xF0000000#32 = 0xB0000000#32 →
    decodeInstr w = .input (w.extractLsb' 3 25) (w.extractLsb' 0 3) ∧
    exec (.input (w.extractLsb' 3 25) (w.extractLsb' 0 3)) s =
      .next (Expected.after s w
        (.instr .input (.oneRegister (w.extractLsb' 0 3))) (Expected.ports1R 11 w)
        (ascii "r" ++ dec (w.extractLsb' 0 3).toNat ++ ascii " := input();")
        Expected.spans1R)

/-- LoadProgram: a word with code 12 decodes, drives the ports, reads as text and is cut into spans as its rule says
(R83, with the family rule R81). `Expected.after` says how the evaluation stands in the
model's environment (log entries 1 and 5); the rule says what is in it. -/
def Obligations.LoadProgramAnswersAsItsRuleSays : Prop :=
  ∀ (w : Word32) (s : State), w &&& 0xF0000000#32 = 0xC0000000#32 →
    decodeInstr w = .loadProgram (w.extractLsb' 6 22) (w.extractLsb' 3 3) (w.extractLsb' 0 3) ∧
    exec (.loadProgram (w.extractLsb' 6 22) (w.extractLsb' 3 3) (w.extractLsb' 0 3)) s =
      .next (Expected.after s w
        (.instr .loadProgram (.twoRegister (w.extractLsb' 3 3) (w.extractLsb' 0 3))) (Expected.ports2R 12 w)
        (ascii "goto r" ++ dec (w.extractLsb' 0 3).toNat ++
          ascii " in program m[r" ++ dec (w.extractLsb' 3 3).toNat ++ ascii "];")
        Expected.spans2R)

/-- LoadValue: a word with code 13 decodes to RL and VL, never to A, B or C
(R91). `Expected.after` says how the evaluation stands in the
model's environment (log entries 1 and 5); the rule says what is in it. -/
def Obligations.LoadValueAnswersAsItsRuleSays : Prop :=
  ∀ (w : Word32) (s : State), w &&& 0xF0000000#32 = 0xD0000000#32 →
    decodeInstr w = .loadValue (w.extractLsb' 25 3) (w.extractLsb' 0 25) ∧
    exec (.loadValue (w.extractLsb' 25 3) (w.extractLsb' 0 25)) s =
      .next (Expected.after s w
        (.instr .loadValue (.immediate (w.extractLsb' 25 3) (w.extractLsb' 0 25))) (Expected.portsIMM w)
        (ascii "r" ++ dec (w.extractLsb' 25 3).toNat ++
          ascii " := " ++ dec (w.extractLsb' 0 25).toNat ++ ascii ";")
        Expected.spansIMM)

/-- A word with opcode value 14 is data, an ordinary result and never a fault
(R93). `Expected.after` says how the evaluation stands in the
model's environment (log entries 1 and 5); the rule says what is in it. -/
def Obligations.Unrecognized14AnswersAsItsRuleSays : Prop :=
  ∀ (w : Word32) (s : State), w &&& 0xF0000000#32 = 0xE0000000#32 →
    decodeInstr w = .unrecognized14 w ∧
    exec (.unrecognized14 w) s =
      .next (Expected.after s w
        (.data w) (Expected.portsRAW 14 w) (ascii ".data 0x" ++ hex8 w)
        Expected.spansRAW)

/-- A word with opcode value 15 is data, an ordinary result and never a fault
(R94). `Expected.after` says how the evaluation stands in the
model's environment (log entries 1 and 5); the rule says what is in it. -/
def Obligations.Unrecognized15AnswersAsItsRuleSays : Prop :=
  ∀ (w : Word32) (s : State), w &&& 0xF0000000#32 = 0xF0000000#32 →
    decodeInstr w = .unrecognized15 w ∧
    exec (.unrecognized15 w) s =
      .next (Expected.after s w
        (.data w) (Expected.portsRAW 15 w) (ascii ".data 0x" ++ hex8 w)
        Expected.spansRAW)

/-- A step runs the instruction the next word decodes to. That words wait in `pending` and that `withFetchWord` hands in
the next one is the model's choice (log entries 1 and 4), and so is that a step with no word left changes nothing
(log entry 10). -/
def Obligations.StepRunsTheDecodedInstruction : Prop :=
  (∀ (s : State) (w : Word32) (rest : List Word32), s.pending = w :: rest →
    (decodeInstr w).wellFormed = true ∧ step s = exec (decodeInstr w) { s with pending := rest }) ∧
  (∀ (s : State) (i : Instr), i.wellFormed = true → step (s.withFetchWord 32 (encode i).toNat) = exec i s) ∧
  (∀ s : State, s.pending = [] → step s = .next s)

/-- Every instruction and every step has one outcome, a next state: nothing faults and nothing is refused (R119). -/
def Obligations.NoFaultAndNoRefusal : Prop :=
  (∀ s : State, ∃ t, step s = .next t) ∧ (∀ (i : Instr) (s : State), ∃ t, exec i s = .next t)

/-- Running the instruction of a word, rule by rule, answers exactly what the combinational block computes from the
word (R63, R64). How the answer stands in State is the model's choice: the word on `word_i`, the words waiting and the
results read (log entries 1 and 4), one `Result` per evaluation (log entry 5), one word per step (log entry 11). -/
def Obligations.StepRefinesTheCombinationalBlock : Prop :=
  ∀ (s : State) (w : Word32) (rest : List Word32), s.pending = w :: rest →
    step s = .next
      { hasHighlighter := s.hasHighlighter
        wordI := w
        pending := rest
        results := s.results ++ [answer s.hasHighlighter w] }

/-- n steps from any state add the answers for the first n pending words, in input order (R33, R141). That the words wait
in `pending`, the answers collect in `results` and both are empty at reset is the model's choice (log entry 4), and so
is that a step with no word left changes nothing (log entry 10). -/
def Obligations.RunOfABatchIsTheMapOverItsWords : Prop :=
  (∀ (n : Nat) (s : State),
    Host.Core.run Sys2Proof.core n s = (.next
      { hasHighlighter := s.hasHighlighter
        wordI := ((s.pending.take n).getLast?).getD s.wordI
        pending := s.pending.drop n
        results := s.results ++ (s.pending.take n).map (answer s.hasHighlighter) } :
        Host.Outcome State Fault Refusal)) ∧
  (∀ ws : List Word32, ∃ t : State,
    Host.Core.run Sys2Proof.core ws.length (State.reset.supply ws) = (.next t : Host.Outcome State Fault Refusal) ∧
    t.pending = [] ∧ t.results.length = ws.length ∧ t.results.map (·.decoded) = decodeSeq ws ∧
    t.results.map (·.text) = renderSeq ws)

/-- Every step keeps every result the consumer holds equal to the block's answer for the word it is paired with (R9,
R137). That State holds the results is the model's choice (log entries 1, 4 and 5). -/
def Obligations.EveryStepKeepsResultsFaithful : Prop :=
  ∀ s t : State, s.Faithful → step s = .next t → t.Faithful

/-- The invariant of faithful results holds at reset. That no result is held at reset is the model's choice (log entry 4):
R132 gives the block no state and so no reset value. -/
def Obligations.ResetIsFaithful : Prop :=
  State.reset.Faithful

/-- A step never writes the parameter, takes at most the first pending word, and keeps the order of the words (R33).
That the words wait in `pending` and the results collect in `results` is the model's choice (log entry 4), and so is
that a step with no word left changes nothing (log entry 10). -/
def Obligations.StepKeepsTheParameterAndTheHistory : Prop :=
  ∀ s t : State, step s = .next t →
    t.hasHighlighter = s.hasHighlighter ∧ t.pending = s.pending.tail ∧ s.results <+: t.results ∧
    t.results.length = s.results.length + min 1 s.pending.length ∧
    t.results.map (·.word) ++ t.pending = s.results.map (·.word) ++ s.pending

/-- The result for a word depends neither on the words before it nor on those after it (R137). How words and results stand
in State is the model's form of the environment (log entries 1, 4 and 5). -/
def Obligations.DecodesDoNotInfluenceEachOther : Prop :=
  (∀ (s s' : State) (w : Word32) (rest rest' : List Word32), s.hasHighlighter = s'.hasHighlighter →
    s.pending = w :: rest → s'.pending = w :: rest' →
      ∃ (t t' : State) (r : Result), step s = .next t ∧ step s' = .next t' ∧ t.results = s.results ++ [r] ∧
        t'.results = s'.results ++ [r] ∧ t.outputs = t'.outputs) ∧
  (∀ (s : State) (v w : Word32) (rest : List Word32), s.pending = v :: w :: rest →
    ∃ (t t' : State) (r r' : Result),
      Host.Core.run Sys2Proof.core 2 s = (.next t : Host.Outcome State Fault Refusal) ∧
      t.results = s.results ++ [r', r] ∧
      step { s with pending := w :: rest } = .next t' ∧ t'.results = s.results ++ [r])

/-- The outputs are at every moment the function of word_i (R64). That a recorded result is what stood on the outputs
after the step is the model's choice and not the spec's (log entries 5 and 11): R139 asks it of the consumer. -/
def Obligations.OutputsFollowTheWordOnTheInput : Prop :=
  (∀ s s' : State, s.wordI = s'.wordI → s.hasHighlighter = s'.hasHighlighter → s.outputs = s'.outputs) ∧
  (∀ (s : State) (w : Word32), (s.drive w).ports = portsOf w ∧ (s.drive w).outputs.ports = (s.drive w).ports) ∧
  (∀ (s : State) (w : Word32) (rest : List Word32), s.pending = w :: rest →
    ∃ t, step s = .next t ∧ t.wordI = w ∧ t.ports = portsOf w ∧ t.results.getLast? = some t.outputs)

/-- At reset nothing is pending and nothing has been read: the model's choice (log entry 4), since the spec gives these no
reset value (R24, R132). Any word driven then shows its own ports (R134). -/
def Obligations.ResetHoldsNothing : Prop :=
  State.reset.pending = [] ∧ State.reset.results = [] ∧ ∀ w : Word32, (State.reset.drive w).ports = portsOf w

/-- Every text is one line of the listed ASCII characters, without double, leading or trailing spaces (R96). -/
def Obligations.TextIsOnePrintableLine : Prop :=
  ∀ w : Word32,
    (∀ b ∈ render w, b ∈ ascii " !()*+./0123456789:;=[]abcdefghilmnoprstuwx") ∧
    (∀ b ∈ render w, 0x20 ≤ b.toNat ∧ b.toNat ≤ 0x7E) ∧
    (¬ [0x20#8, 0x20#8] <:+: render w) ∧ (render w).head? ≠ some 0x20#8 ∧ (render w).getLast? ≠ some 0x20#8

/-- Every text is 4 to 29 bytes long, and each opcode's text has its template's length (R101). -/
def Obligations.TextLengthsAreThoseOfTheTemplates : Prop :=
  ∀ w : Word32,
    (4 ≤ (render w).length ∧ (render w).length ≤ 29) ∧
    (match decodeInstr w with
      | .cMov _ _ _ _ => (render w).length = 22
      | .load _ _ _ _ => (render w).length = 16
      | .store _ _ _ _ => (render w).length = 16
      | .add _ _ _ _ => (render w).length = 14
      | .mul _ _ _ _ => (render w).length = 14
      | .div _ _ _ _ => (render w).length = 14
      | .nand _ _ _ _ => (render w).length = 17
      | .halt _ => (render w).length = 4
      | .mapSegment _ _ _ => (render w).length = 29
      | .unmapSegment _ _ => (render w).length = 9
      | .output _ _ => (render w).length = 10
      | .input _ _ => (render w).length = 14
      | .loadProgram _ _ _ => (render w).length = 25
      | .loadValue _ _ => 8 ≤ (render w).length ∧ (render w).length ≤ 15
      | .unrecognized14 _ => (render w).length = 16
      | .unrecognized15 _ => (render w).length = 16)

/-- dec n is the shortest decimal numeral of n (R97). -/
def Obligations.DecimalNumeralsAreShortestAndReadBack : Prop :=
  (∀ n : Nat,
    (dec n).foldl (fun v d => 10 * v + (d.toNat - 0x30)) 0 = n ∧
    dec n ≠ [] ∧ (∀ d ∈ dec n, 0x30 ≤ d.toNat ∧ d.toNat ≤ 0x39) ∧
    ((dec n).head? = some 0x30#8 → dec n = [0x30#8]) ∧
    (n ≤ 7 → (dec n).length = 1) ∧ (n < 2 ^ 25 → (dec n).length ≤ 8)) ∧
  dec 0 = [0x30#8]

/-- hex8 is eight lower-case hexadecimal digits, digit i the nibble 31 - 4i down to 28 - 4i (R98). -/
def Obligations.HexNumeralsShowEachNibble : Prop :=
  (∀ w : Word32,
    (hex8 w).length = 8 ∧
    ∀ i < 8, (hex8 w)[i]? = (ascii "0123456789abcdef")[(w.extractLsb' (28 - 4 * i) 4).toNat]?) ∧
  (∀ w w' : Word32, hex8 w = hex8 w' → w = w')

/-- Two words have the same text exactly when they have the same decode result (R95, R100). -/
def Obligations.TextAndDecodeResultDetermineEachOther : Prop :=
  ∀ w w' : Word32, render w = render w' ↔ decode w = decode w'

/-- The spans of every word partition bits 31..0, and the opcode span is there exactly for recognized words (R109,
R110). -/
def Obligations.SpansPartitionTheWord : Prop :=
  ∀ w : Word32,
    (∀ sp ∈ spans w, sp.lo ≤ sp.hi ∧ sp.hi ≤ 31) ∧
    ((spans w).head?.map (·.hi) = some 31 ∧ (spans w).getLast?.map (·.lo) = some 0) ∧
    (∀ (k : Nat) (x y : Span), (spans w)[k]? = some x → (spans w)[k + 1]? = some y → x.lo = y.hi + 1) ∧
    (∀ i < 32, ((spans w).filter fun sp => decide (sp.lo ≤ i) && decide (i ≤ sp.hi)).length = 1) ∧
    ((portsOf w).recognizedO = 1#1 → (spans w).head? = some ⟨31, 28, .opcode⟩) ∧
    ((portsOf w).recognizedO = 0#1 → spans w = [⟨31, 0, .raw⟩] ∧ ∀ sp ∈ spans w, sp.cls ≠ .opcode)

/-- Entry i of class_o is the class number of the span of bit i, as the table by shape says, and the spans are
recovered from it (R115). -/
def Obligations.ClassPortNamesTheSpanOfEachBit : Prop :=
  (∀ (w : Word32) (h : HighlighterOutputs), (answer true w).highlighter = some h →
    ∀ i < 32,
      (∃ sp ∈ spans w, sp.lo ≤ i ∧ i ≤ sp.hi ∧ h.classO.extractLsb' (3 * i) 3 = spanClassNumber sp.cls) ∧
      h.classO.extractLsb' (3 * i) 3 = Expected.classRow (shapeOf (decode w)) i) ∧
  (∀ (w w' : Word32) (h h' : HighlighterOutputs), (answer true w).highlighter = some h →
    (answer true w').highlighter = some h' → h.classO = h'.classO → spans w = spans w')

/-- Register and value spans exist exactly where valid_o is 1, at their fields' bit ranges (R116). -/
def Obligations.HighlighterAgreesWithThePorts : Prop :=
  ∀ w : Word32,
    ((∃ sp ∈ spans w, sp.cls = .regA) ↔ (portsOf w).validO.getLsbD 4 = true) ∧
    ((∃ sp ∈ spans w, sp.cls = .regB) ↔ (portsOf w).validO.getLsbD 3 = true) ∧
    ((∃ sp ∈ spans w, sp.cls = .regC) ↔ (portsOf w).validO.getLsbD 2 = true) ∧
    ((∃ sp ∈ spans w, sp.cls = .regL) ↔ (portsOf w).validO.getLsbD 1 = true) ∧
    ((∃ sp ∈ spans w, sp.cls = .value) ↔ (portsOf w).validO.getLsbD 0 = true) ∧
    ((∃ sp ∈ spans w, sp.cls = .opcode) ↔ (portsOf w).recognizedO = 1#1) ∧
    ((∃ sp ∈ spans w, sp.cls = .raw) ↔ (portsOf w).recognizedO = 0#1) ∧
    (∀ sp ∈ spans w,
      (sp.cls = .regA → Expected.fieldRange fieldRA sp) ∧ (sp.cls = .regB → Expected.fieldRange fieldRB sp) ∧
      (sp.cls = .regC → Expected.fieldRange fieldRC sp) ∧ (sp.cls = .regL → Expected.fieldRange fieldRL sp) ∧
      (sp.cls = .value → Expected.fieldRange fieldVL sp))

/-- The digit string is the word in binary, most significant bit first, and bin_o is the word (R105). -/
def Obligations.BinaryDigitsAreTheWordsBits : Prop :=
  ∀ w : Word32,
    (binaryDigits w).length = 32 ∧
    (∀ k < 32, (binaryDigits w)[k]? = some (if w.getLsbD (31 - k) then 0x31#8 else 0x30#8)) ∧
    (binaryDigits w).foldl (fun v d => 2 * v + (d.toNat - 0x30)) 0 = w.toNat ∧
    (answer true w).highlighter.map (·.binO) = some w

/-- Whatever the palette, the visible characters of the annotated text are the 32 digits in order (R111). -/
def Obligations.AnnotatedTextShowsExactlyTheDigits : Prop :=
  ∀ (palette : Palette) (w : Word32),
    annotatedText palette w =
      ((spans w).map fun sp =>
        (palette sp.cls).1 ++ ((List.range 32).filter fun k => decide (31 - sp.hi ≤ k) && decide (k ≤ 31 - sp.lo)).map
          (fun k => if w.getLsbD (31 - k) then 0x31#8 else 0x30#8) ++ (palette sp.cls).2).flatten ∧
    visibleText palette w = binaryDigits w ∧ annotatedText identityPalette w = binaryDigits w

/-- Without HAS_HIGHLIGHTER the highlighter's outputs do not exist and every other output is unchanged (R118). -/
def Obligations.WithoutTheOptionOnlyTheHighlighterIsGone : Prop :=
  ∀ w : Word32,
    (answer false w).highlighter = none ∧ (answer true w).highlighter.isSome = true ∧
    answer false w = { answer true w with highlighter := none }

/-- The loader's word k is bytes 4k to 4k + 3, big-endian (R26), and n bytes give n / 4 words (R27). That the bytes after
the last whole word are named as a remainder and change no word is the model's choice (log entry 9): R27 leaves what
the loader does with them to the open parameter loader_tail_policy. -/
def Obligations.LoaderDeliversBigEndianWords : Prop :=
  (∀ bytes : List Byte,
    (wordsOfBytes bytes).length = bytes.length / 4 ∧
    remainderBytes bytes = bytes.drop (4 * (bytes.length / 4)) ∧
    ∀ (k : Nat) (b0 b1 b2 b3 : Byte), bytes[4 * k]? = some b0 → bytes[4 * k + 1]? = some b1 →
      bytes[4 * k + 2]? = some b2 → bytes[4 * k + 3]? = some b3 →
        (wordsOfBytes bytes)[k]?.map (·.toNat) =
          some ((b0.toNat <<< 24) ||| (b1.toNat <<< 16) ||| (b2.toNat <<< 8) ||| b3.toNat)) ∧
  (∀ (ws : List Word32) (tail : List Byte), tail.length < 4 → wordsOfBytes (bytesOfWords ws ++ tail) = ws)

/-- The entry point's report has one line per word, in input order, made of the four items (R28). That the format receives
the position counted from 0 as its index is the model's choice (log entry 8): R28 and D13 leave the base and the start
of the index open. -/
def Obligations.ReportHasOneLinePerWord : Prop :=
  ∀ (format : ReportFormat) (has : Bool) (shown : Option Palette) (ws : List Word32),
    (reportLines format has shown ws).length = ws.length ∧
    ∀ (k : Nat) (w : Word32), ws[k]? = some w →
      (reportLines format has shown ws)[k]? = some (format
        { index := k
          word := w
          binary := (match has, shown with
            | true, some palette => some (annotatedText palette w)
            | _, _ => none)
          mnemonic := render w })
end

