-- ==== Sys2Proof/Laws/State.lean ====
section
/-! SUPPORT. One lemma per field per update of `State`, so that no later proof unfolds a record update. -/

namespace Sys2Proof.Machine

@[simp] theorem State.drive_hasHighlighter (s : State) (w : Word32) : (s.drive w).hasHighlighter = s.hasHighlighter := rfl
@[simp] theorem State.drive_wordI (s : State) (w : Word32) : (s.drive w).wordI = w := rfl
@[simp] theorem State.drive_pending (s : State) (w : Word32) : (s.drive w).pending = s.pending := rfl
@[simp] theorem State.drive_results (s : State) (w : Word32) : (s.drive w).results = s.results := rfl

@[simp] theorem State.supply_hasHighlighter (s : State) (ws : List Word32) :
    (s.supply ws).hasHighlighter = s.hasHighlighter := rfl
@[simp] theorem State.supply_wordI (s : State) (ws : List Word32) : (s.supply ws).wordI = s.wordI := rfl
@[simp] theorem State.supply_pending (s : State) (ws : List Word32) : (s.supply ws).pending = s.pending ++ ws := rfl
@[simp] theorem State.supply_results (s : State) (ws : List Word32) : (s.supply ws).results = s.results := rfl

@[simp] theorem State.supplyBytes_eq (s : State) (bytes : List Byte) :
    s.supplyBytes bytes = s.supply (wordsOfBytes bytes) := rfl

@[simp] theorem State.record_hasHighlighter (s : State) (r : Result) :
    (s.record r).hasHighlighter = s.hasHighlighter := rfl
@[simp] theorem State.record_wordI (s : State) (r : Result) : (s.record r).wordI = r.word := rfl
@[simp] theorem State.record_pending (s : State) (r : Result) : (s.record r).pending = s.pending := rfl
@[simp] theorem State.record_results (s : State) (r : Result) : (s.record r).results = s.results ++ [r] := rfl

@[simp] theorem State.withFetchWord_hasHighlighter (s : State) (nbits w : Nat) :
    (s.withFetchWord nbits w).hasHighlighter = s.hasHighlighter := rfl
@[simp] theorem State.withFetchWord_wordI (s : State) (nbits w : Nat) :
    (s.withFetchWord nbits w).wordI = s.wordI := rfl
@[simp] theorem State.withFetchWord_pending (s : State) (nbits w : Nat) :
    (s.withFetchWord nbits w).pending = tableWord nbits w :: s.pending := rfl
@[simp] theorem State.withFetchWord_results (s : State) (nbits w : Nat) :
    (s.withFetchWord nbits w).results = s.results := rfl

@[simp] theorem State.reset_hasHighlighter : State.reset.hasHighlighter = true := rfl
@[simp] theorem State.reset_wordI : State.reset.wordI = 0 := rfl
@[simp] theorem State.reset_pending : State.reset.pending = [] := rfl
@[simp] theorem State.reset_results : State.reset.results = [] := rfl

@[simp] theorem State.ports_eq (s : State) : s.ports = portsOf s.wordI := rfl

end Sys2Proof.Machine
end

