-- ==== Sys2Proof/Laws/Operations.lean ====
section
/-! SUPPORT. One lemma per shared operation that says once everything the operation can do. -/

namespace Sys2Proof

open Machine

/-- The only thing an evaluation can do: record its result. -/
theorem Laws.completes_next_iff (s t : State) (r : Result) : completes s r = .next t ↔ t = s.record r := by
  simp [completes, eq_comm]

/-- `fetch` finds nothing exactly when the sequence is used up. -/
theorem Laws.fetch_eq_none_iff (s : State) : fetch s = none ↔ s.pending = [] := by
  unfold fetch; split <;> simp_all

/-- `fetch` takes the first pending word and changes nothing else. -/
theorem Laws.fetch_eq_some_iff (s t : State) (w : Word32) :
    fetch s = some (w, t) ↔ ∃ rest, s.pending = w :: rest ∧ t = { s with pending := rest } := by
  unfold fetch
  split
  next h => simp [h]
  next v rest h =>
    simp only [Option.some.injEq, Prod.mk.injEq, h, List.cons.injEq]
    constructor
    · rintro ⟨rfl, rfl⟩
      exact ⟨rest, ⟨rfl, rfl⟩, rfl⟩
    · rintro ⟨r, ⟨rfl, rfl⟩, rfl⟩
      exact ⟨rfl, rfl⟩

/-- An operand output whose valid bit is 1 carries its field. -/
@[simp] theorem Laws.gate_true {n : Nat} (x : BitVec n) : gate true x = x := rfl

/-- An operand output whose valid bit is 0 is zero. -/
@[simp] theorem Laws.gate_false {n : Nat} (x : BitVec n) : gate false x = 0 := rfl

/-- With the option the highlighter answers for every word. -/
@[simp] theorem Laws.highlightIf_true (w : Word32) (sps : List Span) :
    highlightIf true w sps = some (highlighterOutputs w sps) := rfl

/-- Without the option there is no highlighter. -/
@[simp] theorem Laws.highlightIf_false (w : Word32) (sps : List Span) : highlightIf false w sps = none := rfl

/-- The loader takes four bytes at a time. -/
@[simp] theorem Laws.wordsOfBytes_cons (b0 b1 b2 b3 : Byte) (rest : List Byte) :
    wordsOfBytes (b0 :: b1 :: b2 :: b3 :: rest) = wordOfBytes b0 b1 b2 b3 :: wordsOfBytes rest := by
  rw [wordsOfBytes]

/-- Fewer than four bytes give no word and remain. -/
theorem Laws.loader_short (bytes : List Byte) (h : bytes.length < 4) :
    wordsOfBytes bytes = [] ∧ remainderBytes bytes = bytes := by
  match bytes, h with
  | [], _ => simp [wordsOfBytes, remainderBytes]
  | [_], _ => simp [wordsOfBytes, remainderBytes]
  | [_, _], _ => simp [wordsOfBytes, remainderBytes]
  | [_, _, _], _ => simp [wordsOfBytes, remainderBytes]

/-- `opcodeOfCode` inverts `Opcode.code`. -/
@[simp] theorem Laws.opcodeOfCode_code (op : Opcode) : opcodeOfCode op.code = some op := by
  cases op <;> rfl

/-- A code has no opcode exactly from 14 on. -/
theorem Laws.opcodeOfCode_cases (code : U4) :
    (∃ op, opcodeOfCode code = some op ∧ op.code = code) ∨ (opcodeOfCode code = none ∧ 14#4 ≤ code) := by
  revert code; decide

/-- The recursion of the decimal numeral: the last digit is the remainder by ten. -/
theorem Laws.decDigits_eq (fuel n : Nat) (h : n < 10 ^ (fuel + 1)) :
    decDigits fuel n = if n < 10 then [decDigit n] else decDigits (fuel - 1) (n / 10) ++ [decDigit (n % 10)] := by
  cases fuel with
  | zero =>
    have : n < 10 := by simpa using h
    simp [decDigits, this, Nat.mod_eq_of_lt this]
  | succ k => rw [decDigits]; simp

end Sys2Proof
end

