-- ==== Sys2Proof/Laws/Words.lean ====
section
/-! SUPPORT. The bits of each format's word (spec/30_encoding.md R39 to R43), said once. -/

namespace Sys2Proof

/-- R39. -/
theorem Laws.getLsbD_word3R (op : U4) (u : BitVec 19) (a b c : U3) (i : Nat) :
    (word3R op u a b c).getLsbD i =
      if i < 3 then c.getLsbD i else if i < 6 then b.getLsbD (i - 3)
      else if i < 9 then a.getLsbD (i - 6) else if i < 28 then u.getLsbD (i - 9)
      else op.getLsbD (i - 28) := by
  have h : (word3R op u a b c).getLsbD i = (op ++ u ++ a ++ b ++ c).getLsbD i := rfl
  rw [h]
  simp only [BitVec.getLsbD_append, Nat.sub_sub]
  repeat' split
  all_goals first | rfl | omega

/-- R40. -/
theorem Laws.getLsbD_word2R (op : U4) (u : BitVec 22) (b c : U3) (i : Nat) :
    (word2R op u b c).getLsbD i =
      if i < 3 then c.getLsbD i else if i < 6 then b.getLsbD (i - 3) else if i < 28 then u.getLsbD (i - 6)
      else op.getLsbD (i - 28) := by
  have h : (word2R op u b c).getLsbD i = (op ++ u ++ b ++ c).getLsbD i := rfl
  rw [h]
  simp only [BitVec.getLsbD_append, Nat.sub_sub]
  repeat' split
  all_goals first | rfl | omega

/-- R41. -/
theorem Laws.getLsbD_word1R (op : U4) (u : BitVec 25) (c : U3) (i : Nat) :
    (word1R op u c).getLsbD i =
      if i < 3 then c.getLsbD i else if i < 28 then u.getLsbD (i - 3)
      else op.getLsbD (i - 28) := by
  have h : (word1R op u c).getLsbD i = (op ++ u ++ c).getLsbD i := rfl
  rw [h]
  simp only [BitVec.getLsbD_append, Nat.sub_sub]
  repeat' split
  all_goals first | rfl | omega

/-- R42. -/
theorem Laws.getLsbD_wordH (op : U4) (u : BitVec 28) (i : Nat) :
    (wordH op u).getLsbD i = if i < 28 then u.getLsbD i else op.getLsbD (i - 28) :=
  BitVec.getLsbD_append

/-- R43. -/
theorem Laws.getLsbD_wordIMM (op : U4) (reg : U3) (value : U25) (i : Nat) :
    (wordIMM op reg value).getLsbD i =
      if i < 25 then value.getLsbD i else if i < 28 then reg.getLsbD (i - 25)
      else op.getLsbD (i - 28) := by
  have h : (wordIMM op reg value).getLsbD i = (op ++ reg ++ value).getLsbD i := rfl
  rw [h]
  simp only [BitVec.getLsbD_append, Nat.sub_sub]
  repeat' split
  all_goals first | rfl | omega

end Sys2Proof
end

