-- ==== Sys2Proof/Laws/PerInstr.lean ====
section
/-! SUPPORT. Statements about every instruction as syntax, one lemma per constructor. -/

namespace Sys2Proof

/-- The value of the OP field of each row (R45). -/
def Laws.rowCode : Instr → U4
  | .cMov _ _ _ _ => 0
  | .load _ _ _ _ => 1
  | .store _ _ _ _ => 2
  | .add _ _ _ _ => 3
  | .mul _ _ _ _ => 4
  | .div _ _ _ _ => 5
  | .nand _ _ _ _ => 6
  | .halt _ => 7
  | .mapSegment _ _ _ => 8
  | .unmapSegment _ _ => 9
  | .output _ _ => 10
  | .input _ _ => 11
  | .loadProgram _ _ _ => 12
  | .loadValue _ _ => 13
  | .unrecognized14 _ => 14
  | .unrecognized15 _ => 15

/-- The top four bits of a well-formed instruction's word are its row's code. -/
def Laws.EncodedOpcode.Statement (i : Instr) : Prop :=
  i.wellFormed = true → (encode i).extractLsb' 28 4 = Laws.rowCode i

theorem Laws.opcode_word3R (op : U4) (u : BitVec 19) (a b c : U3) : (word3R op u a b c).extractLsb' 28 4 = op := by
  apply BitVec.eq_of_getLsbD_eq
  intro i h
  simp only [BitVec.getLsbD_extractLsb', Laws.getLsbD_word3R, h, decide_true, Bool.true_and]
  repeat rw [if_neg (by omega)]
  congr 1; omega

theorem Laws.opcode_word2R (op : U4) (u : BitVec 22) (b c : U3) : (word2R op u b c).extractLsb' 28 4 = op := by
  apply BitVec.eq_of_getLsbD_eq
  intro i h
  simp only [BitVec.getLsbD_extractLsb', Laws.getLsbD_word2R, h, decide_true, Bool.true_and]
  repeat rw [if_neg (by omega)]
  congr 1; omega

theorem Laws.opcode_word1R (op : U4) (u : BitVec 25) (c : U3) : (word1R op u c).extractLsb' 28 4 = op := by
  apply BitVec.eq_of_getLsbD_eq
  intro i h
  simp only [BitVec.getLsbD_extractLsb', Laws.getLsbD_word1R, h, decide_true, Bool.true_and]
  repeat rw [if_neg (by omega)]
  congr 1; omega

theorem Laws.opcode_wordH (op : U4) (u : BitVec 28) : (wordH op u).extractLsb' 28 4 = op := by
  apply BitVec.eq_of_getLsbD_eq
  intro i h
  simp only [BitVec.getLsbD_extractLsb', Laws.getLsbD_wordH, h, decide_true, Bool.true_and]
  repeat rw [if_neg (by omega)]
  congr 1; omega

theorem Laws.opcode_wordIMM (op : U4) (reg : U3) (value : U25) : (wordIMM op reg value).extractLsb' 28 4 = op := by
  apply BitVec.eq_of_getLsbD_eq
  intro i h
  simp only [BitVec.getLsbD_extractLsb', Laws.getLsbD_wordIMM, h, decide_true, Bool.true_and]
  repeat rw [if_neg (by omega)]
  congr 1; omega

namespace Laws.EncodedOpcode

theorem cMov (u : BitVec 19) (a b c : U3) : Statement (.cMov u a b c) := fun _ => opcode_word3R 0 u a b c
theorem load (u : BitVec 19) (a b c : U3) : Statement (.load u a b c) := fun _ => opcode_word3R 1 u a b c
theorem store (u : BitVec 19) (a b c : U3) : Statement (.store u a b c) := fun _ => opcode_word3R 2 u a b c
theorem add (u : BitVec 19) (a b c : U3) : Statement (.add u a b c) := fun _ => opcode_word3R 3 u a b c
theorem mul (u : BitVec 19) (a b c : U3) : Statement (.mul u a b c) := fun _ => opcode_word3R 4 u a b c
theorem div (u : BitVec 19) (a b c : U3) : Statement (.div u a b c) := fun _ => opcode_word3R 5 u a b c
theorem nand (u : BitVec 19) (a b c : U3) : Statement (.nand u a b c) := fun _ => opcode_word3R 6 u a b c
theorem halt (u : BitVec 28) : Statement (.halt u) := fun _ => opcode_wordH 7 u
theorem mapSegment (u : BitVec 22) (b c : U3) : Statement (.mapSegment u b c) := fun _ => opcode_word2R 8 u b c
theorem unmapSegment (u : BitVec 25) (c : U3) : Statement (.unmapSegment u c) := fun _ => opcode_word1R 9 u c
theorem output (u : BitVec 25) (c : U3) : Statement (.output u c) := fun _ => opcode_word1R 10 u c
theorem input (u : BitVec 25) (c : U3) : Statement (.input u c) := fun _ => opcode_word1R 11 u c
theorem loadProgram (u : BitVec 22) (b c : U3) : Statement (.loadProgram u b c) := fun _ => opcode_word2R 12 u b c
theorem loadValue (reg : U3) (value : U25) : Statement (.loadValue reg value) :=
  fun _ => opcode_wordIMM 13 reg value
theorem unrecognized14 (raw : Word32) : Statement (.unrecognized14 raw) := fun h => eq_of_beq h
theorem unrecognized15 (raw : Word32) : Statement (.unrecognized15 raw) := fun h => eq_of_beq h

end Laws.EncodedOpcode

end Sys2Proof
end

