-- ==== Sys2Proof/Tests/Slice0.lean ====
section
/-! SUPPORT. The model's own tests. Expected values are those of spec/95_test_vectors.md (its sections are named below)
or are written out from the encodings of spec/30_encoding.md; none is the model's own answer. -/

namespace Sys2Proof.Tests

open Sys2Proof.Machine

/-! ## WellFormed: each check refuses an ill-formed term -/

theorem smoke_unrecognized14_refuses_another_row : (Instr.unrecognized14 0x30000053).wellFormed = false := by decide
theorem smoke_unrecognized14_refuses_15 : (Instr.unrecognized14 0xF0000000).wellFormed = false := by decide
theorem smoke_unrecognized15_refuses_14 : (Instr.unrecognized15 0xEFFFFFFF).wellFormed = false := by decide
theorem smoke_unrecognized_accepts :
    (Instr.unrecognized14 0xEFFFFFFF).wellFormed = true ∧ (Instr.unrecognized15 0xF0000000).wellFormed = true := by decide

/-! ## Decoding: one word per constructor, its fields written out from R39 to R44 -/

theorem test_decode_cMov : decodeInstr 0b0000_1111111111111111111_000_101_110 = .cMov 0b1111111111111111111 0 5 6 := by
  decide
theorem test_decode_load : decodeInstr 0b0001_0000000000000000000_101_000_001 = .load 0 5 0 1 := by decide
theorem test_decode_store : decodeInstr 0b0010_0000000000000000000_000_001_011 = .store 0 0 1 3 := by decide
theorem test_decode_add : decodeInstr 0b0011_1010101111001101111_001_010_011 = .add 0b1010101111001101111 1 2 3 := by
  decide
theorem test_decode_mul : decodeInstr 0b0100_0000000000000000000_011_001_010 = .mul 0 3 1 2 := by decide
theorem test_decode_div : decodeInstr 0b0101_0000000000000000000_010_001_000 = .div 0 2 1 0 := by decide
theorem test_decode_nand : decodeInstr 0b0110_0000000000000000000_100_011_011 = .nand 0 4 3 3 := by decide
theorem test_decode_halt : decodeInstr 0b0111_1010101111001101111011110000 = .halt 0b1010101111001101111011110000 := by
  decide
theorem test_decode_mapSegment : decodeInstr 0b1000_0000000000000000000000_010_101 = .mapSegment 0 2 5 := by decide
theorem test_decode_unmapSegment :
    decodeInstr 0b1001_1111111111111111111111111_000 = .unmapSegment 0b1111111111111111111111111 0 := by decide
theorem test_decode_output : decodeInstr 0b1010_0000000000000000000000000_011 = .output 0 3 := by decide
theorem test_decode_input : decodeInstr 0b1011_0000000000000000000000000_110 = .input 0 6 := by decide
theorem test_decode_loadProgram : decodeInstr 0b1100_0000000000000000000000_000_011 = .loadProgram 0 0 3 := by decide
theorem test_decode_loadValue : decodeInstr 0b1101_111_0000000000000000100000000 = .loadValue 7 256 := by decide
theorem test_decode_unrecognized14 : decodeInstr 0xE0000007 = .unrecognized14 0xE0000007 := by decide
theorem test_decode_unrecognized15 : decodeInstr 0xF00001FF = .unrecognized15 0xF00001FF := by decide

/-- R26, section 2.10: the first byte is the most significant. -/
theorem test_decodeBytes : decodeBytes [0xD0, 0x00, 0x00, 0x48, 0xA0] = .ok (.loadValue 0 72, [0xA0]) := by rfl
theorem test_decodeBytes_short : decodeBytes [0x70, 0x00, 0x00] = .error (.remainder 3) := by rfl
theorem test_decodeTableWord : decodeTableWord 32 0x80000015 = some (.mapSegment 0 2 5) := by decide

/-! ## The extractions of section 2.1 -/

theorem test_extract_mixed :
    (xOp 0x12345678, xRa 0x12345678, xRb 0x12345678, xRc 0x12345678, xRl 0x12345678, xVl 0x12345678) =
      (1, 1, 7, 0, 1, 3430008) := by decide
theorem test_extract_rl_only :
    (xOp 0x02000000, xRa 0x02000000, xRb 0x02000000, xRc 0x02000000, xRl 0x02000000, xVl 0x02000000) =
      (0, 0, 0, 0, 1, 0) := by decide

/-! ## One step per instruction, on the rows of sections 2.3 to 2.8: the ports (recognized_o, opcode_o, layout_o, valid_o,
a_o, b_o, c_o, rl_o, vl_o, raw_o) and the text -/

/-- What the consumer reads after one step on the word, from reset. -/
def resultAfter (w : Nat) : Option Result :=
  match step (State.reset.withFetchWord 32 w) with
  | .next s => s.results.head?
  | .fault _ => none
  | .refused _ => none

/-- The ports and the text of it. -/
def resultOf (w : Nat) : Option (Ports × List Byte) := (resultAfter w).map fun r => (r.ports, r.text)

theorem test_step_cMov : resultOf 0x000000D1 =
    some (⟨1, 0, 0, 0b11100, 3, 2, 1, 0, 0, 0x00000000⟩, ascii "if (r1 != 0) r3 := r2;") := by decide
theorem test_step_cMov_corner : resultOf 0x0FFFFE2E =
    some (⟨1, 0, 0, 0b11100, 0, 5, 6, 0, 0, 0x00000000⟩, ascii "if (r6 != 0) r0 := r5;") := by decide
theorem test_step_load : resultOf 0x10000141 =
    some (⟨1, 1, 0, 0b11100, 5, 0, 1, 0, 0, 0x00000000⟩, ascii "r5 := m[r0][r1];") := by decide
theorem test_step_load_corner : resultOf 0x1000003F =
    some (⟨1, 1, 0, 0b11100, 0, 7, 7, 0, 0, 0x00000000⟩, ascii "r0 := m[r7][r7];") := by decide
theorem test_step_store : resultOf 0x2000000B =
    some (⟨1, 2, 0, 0b11100, 0, 1, 3, 0, 0, 0x00000000⟩, ascii "m[r0][r1] := r3;") := by decide
theorem test_step_store_corner : resultOf 0x2ABCDEC8 =
    some (⟨1, 2, 0, 0b11100, 3, 1, 0, 0, 0, 0x00000000⟩, ascii "m[r3][r1] := r0;") := by decide
theorem test_step_add : resultOf 0x3ABCDE53 =
    some (⟨1, 3, 0, 0b11100, 1, 2, 3, 0, 0, 0x00000000⟩, ascii "r1 := r2 + r3;") := by decide
theorem test_step_add_corner : resultOf 0x300001FF =
    some (⟨1, 3, 0, 0b11100, 7, 7, 7, 0, 0, 0x00000000⟩, ascii "r7 := r7 + r7;") := by decide
theorem test_step_mul : resultOf 0x400000CA =
    some (⟨1, 4, 0, 0b11100, 3, 1, 2, 0, 0, 0x00000000⟩, ascii "r3 := r1 * r2;") := by decide
theorem test_step_mul_corner : resultOf 0x4000007A =
    some (⟨1, 4, 0, 0b11100, 1, 7, 2, 0, 0, 0x00000000⟩, ascii "r1 := r7 * r2;") := by decide
theorem test_step_div : resultOf 0x50000088 =
    some (⟨1, 5, 0, 0b11100, 2, 1, 0, 0, 0, 0x00000000⟩, ascii "r2 := r1 / r0;") := by decide
theorem test_step_div_corner : resultOf 0x500001C0 =
    some (⟨1, 5, 0, 0b11100, 7, 0, 0, 0, 0, 0x00000000⟩, ascii "r7 := r0 / r0;") := by decide
theorem test_step_nand : resultOf 0x6000011B =
    some (⟨1, 6, 0, 0b11100, 4, 3, 3, 0, 0, 0x00000000⟩, ascii "r4 := r3 nand r3;") := by decide
theorem test_step_nand_corner : resultOf 0x600001FF =
    some (⟨1, 6, 0, 0b11100, 7, 7, 7, 0, 0, 0x00000000⟩, ascii "r7 := r7 nand r7;") := by decide
theorem test_step_halt : resultOf 0x70000007 =
    some (⟨1, 7, 3, 0b00000, 0, 0, 0, 0, 0, 0x00000000⟩, ascii "halt") := by decide
theorem test_step_halt_corner : resultOf 0x7FFFFFFF =
    some (⟨1, 7, 3, 0b00000, 0, 0, 0, 0, 0, 0x00000000⟩, ascii "halt") := by decide
theorem test_step_mapSegment : resultOf 0x80000015 =
    some (⟨1, 8, 1, 0b01100, 0, 2, 5, 0, 0, 0x00000000⟩, ascii "r2 := map segment (r5 words);") := by decide
theorem test_step_mapSegment_corner : resultOf 0x8FFFFFC7 =
    some (⟨1, 8, 1, 0b01100, 0, 0, 7, 0, 0, 0x00000000⟩, ascii "r0 := map segment (r7 words);") := by decide
theorem test_step_unmapSegment : resultOf 0x90000004 =
    some (⟨1, 9, 2, 0b00100, 0, 0, 4, 0, 0, 0x00000000⟩, ascii "unmap r4;") := by decide
theorem test_step_unmapSegment_corner : resultOf 0x9FFFFFF8 =
    some (⟨1, 9, 2, 0b00100, 0, 0, 0, 0, 0, 0x00000000⟩, ascii "unmap r0;") := by decide
theorem test_step_output : resultOf 0xA0000003 =
    some (⟨1, 10, 2, 0b00100, 0, 0, 3, 0, 0, 0x00000000⟩, ascii "output r3;") := by decide
theorem test_step_output_corner : resultOf 0xA00001F8 =
    some (⟨1, 10, 2, 0b00100, 0, 0, 0, 0, 0, 0x00000000⟩, ascii "output r0;") := by decide
theorem test_step_input : resultOf 0xB0000006 =
    some (⟨1, 11, 2, 0b00100, 0, 0, 6, 0, 0, 0x00000000⟩, ascii "r6 := input();") := by decide
theorem test_step_input_corner : resultOf 0xBFFFFFFF =
    some (⟨1, 11, 2, 0b00100, 0, 0, 7, 0, 0, 0x00000000⟩, ascii "r7 := input();") := by decide
theorem test_step_loadProgram : resultOf 0xC0000003 =
    some (⟨1, 12, 1, 0b01100, 0, 0, 3, 0, 0, 0x00000000⟩, ascii "goto r3 in program m[r0];") := by decide
theorem test_step_loadProgram_corner : resultOf 0xCFFFFFFF =
    some (⟨1, 12, 1, 0b01100, 0, 7, 7, 0, 0, 0x00000000⟩, ascii "goto r7 in program m[r7];") := by decide
theorem test_step_loadValue : resultOf 0xDE000100 =
    some (⟨1, 13, 4, 0b00011, 0, 0, 0, 7, 256, 0x00000000⟩, ascii "r7 := 256;") := by decide
theorem test_step_loadValue_corner : resultOf 0xDFFFFFFF =
    some (⟨1, 13, 4, 0b00011, 0, 0, 0, 7, 33554431, 0x00000000⟩, ascii "r7 := 33554431;") := by decide
theorem test_step_unrecognized14 : resultOf 0xE0000007 =
    some (⟨0, 14, 7, 0b00000, 0, 0, 0, 0, 0, 0xE0000007⟩, ascii ".data 0xe0000007") := by decide
theorem test_step_unrecognized14_corner : resultOf 0xEDCBA987 =
    some (⟨0, 14, 7, 0b00000, 0, 0, 0, 0, 0, 0xEDCBA987⟩, ascii ".data 0xedcba987") := by decide
theorem test_step_unrecognized15 : resultOf 0xF00001FF =
    some (⟨0, 15, 7, 0b00000, 0, 0, 0, 0, 0, 0xF00001FF⟩, ascii ".data 0xf00001ff") := by decide
theorem test_step_unrecognized15_corner : resultOf 0xFFFFFFFF =
    some (⟨0, 15, 7, 0b00000, 0, 0, 0, 0, 0, 0xFFFFFFFF⟩, ascii ".data 0xffffffff") := by decide

/-! ## The highlighter, on section 2.9 and R117 -/

/-- The digits and the classes of the spans that one step on the word shows. -/
def highlightOf (w : Nat) : Option (List Byte × List SpanClass) :=
  ((resultAfter w).bind (·.highlighter)).map fun h => (h.digits, h.spans.map (·.cls))

theorem test_highlight_3R : highlightOf 0x3ABCDE53 =
    some (ascii "00111010101111001101111001010011", [.opcode, .unused, .regA, .regB, .regC]) := by decide
theorem test_highlight_2R : highlightOf 0xC0000038 =
    some (ascii "11000000000000000000000000111000", [.opcode, .unused, .regB, .regC]) := by decide
theorem test_highlight_1R : highlightOf 0x9FFFFFF8 =
    some (ascii "10011111111111111111111111111000", [.opcode, .unused, .regC]) := by decide
theorem test_highlight_H : highlightOf 0x7FFFFFFF =
    some (ascii "01111111111111111111111111111111", [.opcode, .unused]) := by decide
theorem test_highlight_IMM : highlightOf 0xDE000100 =
    some (ascii "11011110000000000000000100000000", [.opcode, .regL, .value]) := by decide
theorem test_highlight_RAW : highlightOf 0xFFFFFFFF =
    some (ascii "11111111111111111111111111111111", [.raw]) := by decide

/-- Section 2.9: 4 entries of 1, 22 of 2, 3 of 4, 3 of 5, from entry 31 down. -/
theorem test_class_vector : ((resultAfter 0x8FFFFFC7).bind (·.highlighter)).map
    (fun h => (List.range 32).map fun k => h.classO.extractLsb' (3 * (31 - k)) 3) =
      some ([1, 1, 1, 1] ++ List.replicate 22 2 ++ [4, 4, 4, 5, 5, 5]) := by decide

/-! ## The loader, on section 2.10, and the batch -/

theorem test_loader : wordsOfBytes [0xD0, 0, 0, 0x48, 0xA0, 0, 0, 0, 0x70, 0, 0, 0, 0xFF] =
    [0xD0000048, 0xA0000000, 0x70000000] := by decide
theorem test_loader_first_byte_most_significant : wordsOfBytes [0, 0, 0, 0xD0] = [0x000000D0] := by decide
theorem test_loader_remainder : remainderBytes [0x70, 0, 0] = [0x70, 0, 0] := by decide

/-- Section 3, P1 and P5. -/
theorem test_decodeSeq_P1 : decodeSeq [0xD0000048, 0xA0000000, 0x70000000] =
    [.instr .loadValue (.immediate 0 72), .instr .output (.oneRegister 0), .instr .halt .halt] := by decide
theorem test_decodeSeq_P5 : decodeSeq [] = [] := by decide

/-! ## Witnesses: a concrete state and operands that meet the hypotheses of each statement that has some. Where a statement
has several clauses, the witness meets each of them, at boundary values where a range is named -/

/-- A state in the middle of a batch: the next word is a Halt, the one after it a LoadProgram, and one result has been read. -/
def busy : State where
  hasHighlighter := false
  wordI := 0xD0000048
  pending := [0x70000000, 0xC0000003]
  results := [answer false 0xD0000048]

theorem witness_ClassifyFollowsTheOpcodeTable :
    (BitVec.extractLsb' 28 4 0x0FFFFFFF#32).toNat = (0 : Fin 14).val ∧
    (BitVec.extractLsb' 28 4 0xDFFFFFFF#32).toNat = (13 : Fin 14).val ∧
    14 ≤ (BitVec.extractLsb' 28 4 0xE0000000#32).toNat ∧ 14 ≤ (BitVec.extractLsb' 28 4 0xFFFFFFFF#32).toNat := by decide
theorem witness_SelectionUsesTheOpcodeFieldOnly :
    0x30000053#32 &&& 0xF0000000#32 = 0x3ABCDE53#32 &&& 0xF0000000#32 := by decide
theorem witness_LayoutForFollowsTheShapeTable :
    .nand ∈ ([.cMov, .load, .store, .add, .mul, .div, .nand] : List Opcode) ∧
    .loadProgram ∈ ([.mapSegment, .loadProgram] : List Opcode) ∧
    .input ∈ ([.unmapSegment, .output, .input] : List Opcode) := by decide
theorem witness_DecodeTakesExactlyTheFieldsOfTheShape :
    classify 0x6FFFFFFF = .known .nand ∧ classify 0x80000000 = .known .mapSegment ∧
    classify 0x90000000 = .known .unmapSegment ∧ classify 0x70000000 = .known .halt ∧
    classify 0xDFFFFFFF = .known .loadValue ∧ classify 0xE0000000 = .unrecognized 0xE0000000 := by decide
theorem witness_DecodingAnEncodedInstructionGivesItBack :
    (Instr.add 0x7FFFF 1 2 3).wellFormed = true ∧ (Instr.unrecognized14 0xE0000000).wellFormed = true ∧
    (Instr.unrecognized15 0xFFFFFFFF).wellFormed = true := by decide
theorem witness_EveryWordIsExactlyOneInstruction :
    (Instr.output 0 3).wellFormed = true ∧ encode (.output 0 3) = 0xA0000003 := by decide
theorem witness_ByteDecodingIsBigEndianAndTotal :
    (Instr.loadValue 0 72).wellFormed = true ∧ ([0x70, 0, 0] : List Byte).length < 4 ∧ ([] : List Byte).length < 4 := by
  decide
theorem witness_RecognizedAndOpcodePortsFollowTheOpField :
    (portsOf 0xDFFFFFFF).recognizedO = 1#1 ∧ (portsOf 0xE0000000).recognizedO = 0#1 := by decide
theorem witness_RawPortCarriesUnrecognizedWords :
    (portsOf 0xE0000007).recognizedO = 0#1 ∧ (portsOf 0xD0000007).recognizedO = 1#1 := by decide
theorem witness_PortsAndDecodeResultDetermineEachOther :
    (portsOf 0xF0000000).recognizedO = 0#1 ∧ (portsOf 0x300000CA).recognizedO = 1#1 ∧
    (portsOf 0x3ABCDE53).recognizedO = 1#1 ∧ (portsOf 0x300000CA).opcodeO = (portsOf 0x3ABCDE53).opcodeO := by decide
theorem witness_UnusedBitsReachNeitherPortsNorText :
    classify 0x30000053 = .known .add ∧ classify 0x3ABCDE53 = .known .add ∧
    0x30000053 &&& Expected.usedMask (layoutFor .add) = 0x3ABCDE53 &&& Expected.usedMask (layoutFor .add) ∧
    classify 0xE0000000 = .unrecognized 0xE0000000 ∧ render 0xE0000000 = render 0xE0000000 := by decide

theorem witness_CMovAnswersAsItsRuleSays : 0x000000D1#32 &&& 0xF0000000#32 = 0x00000000#32 := by decide
theorem witness_LoadAnswersAsItsRuleSays : 0x10000141#32 &&& 0xF0000000#32 = 0x10000000#32 := by decide
theorem witness_StoreAnswersAsItsRuleSays : 0x2ABCDEC8#32 &&& 0xF0000000#32 = 0x20000000#32 := by decide
theorem witness_AddAnswersAsItsRuleSays : 0x3ABCDE53#32 &&& 0xF0000000#32 = 0x30000000#32 := by decide
theorem witness_MulAnswersAsItsRuleSays : 0x400000CA#32 &&& 0xF0000000#32 = 0x40000000#32 := by decide
theorem witness_DivAnswersAsItsRuleSays : 0x50000088#32 &&& 0xF0000000#32 = 0x50000000#32 := by decide
theorem witness_NandAnswersAsItsRuleSays : 0x6000011B#32 &&& 0xF0000000#32 = 0x60000000#32 := by decide
theorem witness_HaltAnswersAsItsRuleSays : 0x7FFFFFFF#32 &&& 0xF0000000#32 = 0x70000000#32 := by decide
theorem witness_MapSegmentAnswersAsItsRuleSays : 0x8FFFFFC7#32 &&& 0xF0000000#32 = 0x80000000#32 := by decide
theorem witness_UnmapSegmentAnswersAsItsRuleSays : 0x9FFFFFF8#32 &&& 0xF0000000#32 = 0x90000000#32 := by decide
theorem witness_OutputAnswersAsItsRuleSays : 0xA0000003#32 &&& 0xF0000000#32 = 0xA0000000#32 := by decide
theorem witness_InputAnswersAsItsRuleSays : 0xBFFFFFFF#32 &&& 0xF0000000#32 = 0xB0000000#32 := by decide
theorem witness_LoadProgramAnswersAsItsRuleSays : 0xC0000003#32 &&& 0xF0000000#32 = 0xC0000000#32 := by decide
theorem witness_LoadValueAnswersAsItsRuleSays : 0xDFFFFFFF#32 &&& 0xF0000000#32 = 0xD0000000#32 := by decide
theorem witness_Unrecognized14AnswersAsItsRuleSays : 0xEDCBA987#32 &&& 0xF0000000#32 = 0xE0000000#32 := by decide
theorem witness_Unrecognized15AnswersAsItsRuleSays : 0xFFFFFFFF#32 &&& 0xF0000000#32 = 0xF0000000#32 := by decide

theorem witness_StepRunsTheDecodedInstruction :
    busy.pending = 0x70000000 :: [0xC0000003] ∧ (Instr.halt 0).wellFormed = true ∧ State.reset.pending = [] := by decide
theorem witness_StepRefinesTheCombinationalBlock : busy.pending = 0x70000000 :: [0xC0000003] := by decide
theorem witness_EveryStepKeepsResultsFaithful : busy.Faithful ∧ ∃ t, step busy = .next t :=
  ⟨by intro r h; simp only [busy, List.mem_singleton] at h; subst h; rfl, _, rfl⟩
theorem witness_StepKeepsTheParameterAndTheHistory :
    (∃ t, step busy = .next t) ∧ ∃ t, step State.reset = .next t := ⟨⟨_, rfl⟩, _, rfl⟩
theorem witness_DecodesDoNotInfluenceEachOther :
    ({ busy with results := [], pending := [0x70000000] } : State).hasHighlighter = busy.hasHighlighter ∧
    ({ busy with results := [], pending := [0x70000000] } : State).pending = 0x70000000 :: [] ∧
    busy.pending = 0x70000000 :: 0xC0000003 :: [] := by decide
theorem witness_OutputsFollowTheWordOnTheInput :
    busy.wordI = (State.reset.drive 0xD0000048).wordI ∧
    busy.hasHighlighter = ({ State.reset with hasHighlighter := false } : State).hasHighlighter ∧
    busy.pending = 0x70000000 :: [0xC0000003] := by decide
theorem witness_TextIsOnePrintableLine : (0x68#8 : Byte) ∈ render 0x70000000 := by decide
theorem witness_DecimalNumeralsAreShortestAndReadBack :
    (dec 0).head? = some 0x30#8 ∧ (7 : Nat) ≤ 7 ∧ (33554431 : Nat) < 2 ^ 25 ∧ 0x37#8 ∈ dec 7 := by decide
theorem witness_HexNumeralsShowEachNibble : (7 : Nat) < 8 ∧ hex8 0xE0000007 = hex8 0xE0000007 := by decide
theorem witness_SpansPartitionTheWord :
    (spans 0x300000CA)[3]? = some ⟨5, 3, .regB⟩ ∧ (spans 0x300000CA)[3 + 1]? = some ⟨2, 0, .regC⟩ ∧ (31 : Nat) < 32 ∧
    (portsOf 0x300000CA).recognizedO = 1#1 ∧ (portsOf 0xE0000000).recognizedO = 0#1 := by decide
theorem witness_ClassPortNamesTheSpanOfEachBit :
    (answer true 0x30000053).highlighter = some (highlighterOutputs 0x30000053 spans3R) ∧
    (answer true 0x3ABCDE53).highlighter = some (highlighterOutputs 0x3ABCDE53 spans3R) ∧
    (highlighterOutputs 0x30000053 spans3R).classO = (highlighterOutputs 0x3ABCDE53 spans3R).classO ∧ (31 : Nat) < 32 :=
  ⟨rfl, rfl, rfl, by decide⟩
theorem witness_HighlighterAgreesWithThePorts :
    (⟨8, 6, .regA⟩ : Span) ∈ spans 0x300000CA ∧ (⟨5, 3, .regB⟩ : Span) ∈ spans 0x80000015 ∧
    (⟨2, 0, .regC⟩ : Span) ∈ spans 0xA0000003 ∧ (⟨27, 25, .regL⟩ : Span) ∈ spans 0xD0000007 ∧
    (⟨24, 0, .value⟩ : Span) ∈ spans 0xD0000007 := by decide
theorem witness_BinaryDigitsAreTheWordsBits : (31 : Nat) < 32 := by decide
theorem witness_LoaderDeliversBigEndianWords :
    ([0xD0, 0, 0, 0x48] : List Byte)[4 * 0]? = some 0xD0 ∧ ([0xD0, 0, 0, 0x48] : List Byte)[4 * 0 + 1]? = some 0 ∧
    ([0xD0, 0, 0, 0x48] : List Byte)[4 * 0 + 2]? = some 0 ∧ ([0xD0, 0, 0, 0x48] : List Byte)[4 * 0 + 3]? = some 0x48 ∧
    ([0x70, 0, 0] : List Byte).length < 4 := by decide
theorem witness_ReportHasOneLinePerWord : ([0x70000000] : List Word32)[0]? = some 0x70000000 := by decide

end Sys2Proof.Tests
end

/-! Proofs of the family `00_scope.md`: the field slices of an encoded word, the block's answer for a word of each
family, the meaning of a row as that answer, and the step invariant (O40). -/

namespace Sys2Proof

open Machine

/-! ## The extractions are bit slices (R55, R58) -/

theorem ofNat_extract (f : Field) (w : Word32) :
    BitVec.ofNat f.width (extract f w) = w.extractLsb' f.lsb f.width := by
  apply BitVec.eq_of_toNat_eq
  simp [extract, Nat.one_shiftLeft, Nat.and_two_pow_sub_one_eq_mod]

theorem xOp_eq_slice (w : Word32) : xOp w = w.extractLsb' 28 4 := ofNat_extract fieldOP w
theorem xRa_eq_slice (w : Word32) : xRa w = w.extractLsb' 6 3 := ofNat_extract fieldRA w
theorem xRb_eq_slice (w : Word32) : xRb w = w.extractLsb' 3 3 := ofNat_extract fieldRB w
theorem xRc_eq_slice (w : Word32) : xRc w = w.extractLsb' 0 3 := ofNat_extract fieldRC w
theorem xRl_eq_slice (w : Word32) : xRl w = w.extractLsb' 25 3 := ofNat_extract fieldRL w
theorem xVl_eq_slice (w : Word32) : xVl w = w.extractLsb' 0 25 := ofNat_extract fieldVL w

/-! ## The fields of an encoded word (R39 to R43) -/

@[simp] theorem xOp_word3R (op : U4) (u : BitVec 19) (a b c : U3) : xOp (word3R op u a b c) = op := by
  rw [xOp_eq_slice, Laws.opcode_word3R]

@[simp] theorem xOp_word2R (op : U4) (u : BitVec 22) (b c : U3) : xOp (word2R op u b c) = op := by
  rw [xOp_eq_slice, Laws.opcode_word2R]

@[simp] theorem xOp_word1R (op : U4) (u : BitVec 25) (c : U3) : xOp (word1R op u c) = op := by
  rw [xOp_eq_slice, Laws.opcode_word1R]

@[simp] theorem xOp_wordH (op : U4) (u : BitVec 28) : xOp (wordH op u) = op := by
  rw [xOp_eq_slice, Laws.opcode_wordH]

@[simp] theorem xOp_wordIMM (op : U4) (reg : U3) (value : U25) : xOp (wordIMM op reg value) = op := by
  rw [xOp_eq_slice, Laws.opcode_wordIMM]

/-- A slice is known by its bits: the form in which the bit laws of the formats give a field back. -/
theorem slice_eq_of_getLsbD {n lsb : Nat} {w : Word32} {field : BitVec n}
    (h : ∀ i, i < n → w.getLsbD (lsb + i) = field.getLsbD i) : w.extractLsb' lsb n = field := by
  apply BitVec.eq_of_getLsbD_eq
  intro i hi
  simp [hi, h i hi]

@[simp] theorem xRa_word3R (op : U4) (u : BitVec 19) (a b c : U3) : xRa (word3R op u a b c) = a :=
  (xRa_eq_slice _).trans <| slice_eq_of_getLsbD fun i hi => by
    rw [Laws.getLsbD_word3R, if_neg (by omega), if_neg (by omega), if_pos (by omega), Nat.add_sub_cancel_left]

@[simp] theorem xRb_word3R (op : U4) (u : BitVec 19) (a b c : U3) : xRb (word3R op u a b c) = b :=
  (xRb_eq_slice _).trans <| slice_eq_of_getLsbD fun i hi => by
    rw [Laws.getLsbD_word3R, if_neg (by omega), if_pos (by omega), Nat.add_sub_cancel_left]

@[simp] theorem xRc_word3R (op : U4) (u : BitVec 19) (a b c : U3) : xRc (word3R op u a b c) = c :=
  (xRc_eq_slice _).trans <| slice_eq_of_getLsbD fun i hi => by
    rw [Laws.getLsbD_word3R, if_pos (by omega), Nat.zero_add]

@[simp] theorem xRb_word2R (op : U4) (u : BitVec 22) (b c : U3) : xRb (word2R op u b c) = b :=
  (xRb_eq_slice _).trans <| slice_eq_of_getLsbD fun i hi => by
    rw [Laws.getLsbD_word2R, if_neg (by omega), if_pos (by omega), Nat.add_sub_cancel_left]

@[simp] theorem xRc_word2R (op : U4) (u : BitVec 22) (b c : U3) : xRc (word2R op u b c) = c :=
  (xRc_eq_slice _).trans <| slice_eq_of_getLsbD fun i hi => by
    rw [Laws.getLsbD_word2R, if_pos (by omega), Nat.zero_add]

@[simp] theorem xRc_word1R (op : U4) (u : BitVec 25) (c : U3) : xRc (word1R op u c) = c :=
  (xRc_eq_slice _).trans <| slice_eq_of_getLsbD fun i hi => by
    rw [Laws.getLsbD_word1R, if_pos (by omega), Nat.zero_add]

@[simp] theorem xRl_wordIMM (op : U4) (reg : U3) (value : U25) : xRl (wordIMM op reg value) = reg :=
  (xRl_eq_slice _).trans <| slice_eq_of_getLsbD fun i hi => by
    rw [Laws.getLsbD_wordIMM, if_neg (by omega), if_pos (by omega), Nat.add_sub_cancel_left]

@[simp] theorem xVl_wordIMM (op : U4) (reg : U3) (value : U25) : xVl (wordIMM op reg value) = value :=
  (xVl_eq_slice _).trans <| slice_eq_of_getLsbD fun i hi => by
    rw [Laws.getLsbD_wordIMM, if_pos (by omega), Nat.zero_add]

/-! ## Classification and decoding by the OP field (R59, R63) -/

theorem classify_of_xOp_eq_code {w : Word32} {op : Opcode} (h : xOp w = op.code) : classify w = .known op := by
  simp [classify, h]

theorem classify_of_fourteen_le_xOp {w : Word32} (h : 14#4 ≤ xOp w) : classify w = .unrecognized w := by
  obtain ⟨op, -, hcode⟩ | ⟨hnone, -⟩ := Laws.opcodeOfCode_cases (xOp w)
  · rw [← hcode] at h
    cases op <;> exact absurd h (by decide)
  · simp [classify, hnone]

/-- Every word is classified in one of two ways, and its OP field says which. -/
theorem classify_cases (w : Word32) :
    (∃ op : Opcode, xOp w = op.code ∧ classify w = .known op) ∨
    (14#4 ≤ xOp w ∧ classify w = .unrecognized w) := by
  obtain ⟨op, -, hcode⟩ | ⟨-, hle⟩ := Laws.opcodeOfCode_cases (xOp w)
  · exact .inl ⟨op, hcode.symm, classify_of_xOp_eq_code hcode.symm⟩
  · exact .inr ⟨hle, classify_of_fourteen_le_xOp hle⟩

theorem decode_of_xOp_eq_code {w : Word32} {op : Opcode} (h : xOp w = op.code) :
    decode w = .instr op (operands (layoutFor op) w) := by
  simp [decode, classify_of_xOp_eq_code h]

theorem decode_of_fourteen_le_xOp {w : Word32} (h : 14#4 ≤ xOp w) : decode w = .data w := by
  simp [decode, classify_of_fourteen_le_xOp h]

/-- Every word decodes to a well-formed instruction: an unrecognized row is chosen by the OP of the word it carries. -/
theorem wellFormed_decodeInstr (w : Word32) : (decodeInstr w).wellFormed = true := by
  obtain ⟨op, -, hclass⟩ | ⟨hle, hclass⟩ := classify_cases w
  · rw [decodeInstr, hclass]
    cases op <;> rfl
  · have hcodes : ∀ code : U4, 14#4 ≤ code → code ≠ 14#4 → code = 15#4 := by decide
    simp only [decodeInstr, hclass]
    split
    next h14 => simpa [Instr.wellFormed, ← xOp_eq_slice] using h14
    next h14 => simpa [Instr.wellFormed, ← xOp_eq_slice] using hcodes _ hle h14

/-! ## The block's answer for a word, by its OP field -/

/-- The ports of a recognized word: R65 to R69 with the shape of its opcode. -/
theorem portsOf_of_xOp_eq_code {w : Word32} {op : Opcode} (h : xOp w = op.code) :
    portsOf w =
      { recognizedO := 1
        opcodeO := op.code
        layoutO := layoutTag (some (layoutFor op))
        validO := validBits (some (layoutFor op))
        aO := aOut (validBits (some (layoutFor op))) w
        bO := bOut (validBits (some (layoutFor op))) w
        cO := cOut (validBits (some (layoutFor op))) w
        rlO := rlOut (validBits (some (layoutFor op))) w
        vlO := vlOut (validBits (some (layoutFor op))) w
        rawO := 0 } := by
  have hrec : recognizedBit w = 1 := by
    rw [recognizedBit, h]
    cases op <;> rfl
  simp [portsOf, decode_of_xOp_eq_code h, h, hrec, shapeOf, rawOut]

theorem answer_of_xOp_eq_code (has : Bool) {w : Word32} {op : Opcode} (h : xOp w = op.code) :
    answer has w =
      { word := w
        decoded := .instr op (operands (layoutFor op) w)
        ports := portsOf w
        text := textOf (.instr op (operands (layoutFor op) w))
        highlighter := highlightIf has w (spansOf (.instr op (operands (layoutFor op) w))) } := by
  simp [answer, render, spans, decode_of_xOp_eq_code h]

/-- The family rule R73. -/
theorem answer_threeRegister (has : Bool) {w : Word32} {op : Opcode} (h : xOp w = op.code)
    (hshape : layoutFor op = .threeRegister) :
    answer has w = threeRegisterResult has op w (xRa w) (xRb w) (xRc w)
      (textOf (.instr op (.threeRegister (xRa w) (xRb w) (xRc w)))) := by
  rw [answer_of_xOp_eq_code has h, portsOf_of_xOp_eq_code h, hshape]
  rfl

/-- The family rule R81. -/
theorem answer_twoRegister (has : Bool) {w : Word32} {op : Opcode} (h : xOp w = op.code)
    (hshape : layoutFor op = .twoRegister) :
    answer has w = twoRegisterResult has op w (xRb w) (xRc w) (textOf (.instr op (.twoRegister (xRb w) (xRc w)))) := by
  rw [answer_of_xOp_eq_code has h, portsOf_of_xOp_eq_code h, hshape]
  rfl

/-- The family rule R84. -/
theorem answer_oneRegister (has : Bool) {w : Word32} {op : Opcode} (h : xOp w = op.code)
    (hshape : layoutFor op = .oneRegister) :
    answer has w = oneRegisterResult has op w (xRc w) (textOf (.instr op (.oneRegister (xRc w)))) := by
  rw [answer_of_xOp_eq_code has h, portsOf_of_xOp_eq_code h, hshape]
  rfl

/-- R89. -/
theorem answer_halt (has : Bool) {w : Word32} (h : xOp w = Opcode.halt.code) : answer has w = haltResult has w := by
  rw [answer_of_xOp_eq_code has h, portsOf_of_xOp_eq_code h]
  rfl

/-- R91. -/
theorem answer_loadValue (has : Bool) {w : Word32} (h : xOp w = Opcode.loadValue.code) :
    answer has w = immediateResult has w (xRl w) (xVl w) := by
  rw [answer_of_xOp_eq_code has h, portsOf_of_xOp_eq_code h]
  rfl

/-- The family rule R92. -/
theorem answer_unrecognized (has : Bool) {w : Word32} {code : U4} (h : xOp w = code) (hle : 14#4 ≤ code) :
    answer has w = unrecognizedResult has code w := by
  have hdec : decode w = .data w := decode_of_fourteen_le_xOp (h ▸ hle)
  have hrec : recognizedBit w = 0 := if_neg fun hle' => absurd (BitVec.le_trans (h ▸ hle) hle') (by decide)
  have hraw : rawOut 0 w = w := if_pos rfl
  simp only [answer, portsOf, render, spans, hdec, hrec, hraw, h, shapeOf]
  rfl

/-! ## The answer for an encoded word: its operands are those of the term -/

theorem answer_word3R (has : Bool) {op : Opcode} (hshape : layoutFor op = .threeRegister) (u : BitVec 19) (a b c : U3) :
    answer has (word3R op.code u a b c) =
      threeRegisterResult has op (word3R op.code u a b c) a b c (textOf (.instr op (.threeRegister a b c))) := by
  simpa using answer_threeRegister has (xOp_word3R op.code u a b c) hshape

theorem answer_word2R (has : Bool) {op : Opcode} (hshape : layoutFor op = .twoRegister) (u : BitVec 22) (b c : U3) :
    answer has (word2R op.code u b c) =
      twoRegisterResult has op (word2R op.code u b c) b c (textOf (.instr op (.twoRegister b c))) := by
  simpa using answer_twoRegister has (xOp_word2R op.code u b c) hshape

theorem answer_word1R (has : Bool) {op : Opcode} (hshape : layoutFor op = .oneRegister) (u : BitVec 25) (c : U3) :
    answer has (word1R op.code u c) =
      oneRegisterResult has op (word1R op.code u c) c (textOf (.instr op (.oneRegister c))) := by
  simpa using answer_oneRegister has (xOp_word1R op.code u c) hshape

theorem answer_wordIMM (has : Bool) (reg : U3) (value : U25) :
    answer has (wordIMM Opcode.loadValue.code reg value) =
      immediateResult has (wordIMM Opcode.loadValue.code reg value) reg value := by
  simpa using answer_loadValue has (xOp_wordIMM Opcode.loadValue.code reg value)

/-! ## What an instruction and a step can do -/

/-- The rule of every row, on a term of that row, is one evaluation of the block on the term's word. -/
theorem exec_eq_completes_answer (i : Instr) (s : State) (hwf : i.wellFormed = true) :
    exec i s = completes s (answer s.hasHighlighter (encode i)) := by
  cases i with
  | cMov u a b c => exact congrArg (completes s) (answer_word3R _ (op := .cMov) rfl u a b c).symm
  | load u a b c => exact congrArg (completes s) (answer_word3R _ (op := .load) rfl u a b c).symm
  | store u a b c => exact congrArg (completes s) (answer_word3R _ (op := .store) rfl u a b c).symm
  | add u a b c => exact congrArg (completes s) (answer_word3R _ (op := .add) rfl u a b c).symm
  | mul u a b c => exact congrArg (completes s) (answer_word3R _ (op := .mul) rfl u a b c).symm
  | div u a b c => exact congrArg (completes s) (answer_word3R _ (op := .div) rfl u a b c).symm
  | nand u a b c => exact congrArg (completes s) (answer_word3R _ (op := .nand) rfl u a b c).symm
  | halt u => exact congrArg (completes s) (answer_halt _ (xOp_wordH Opcode.halt.code u)).symm
  | mapSegment u b c => exact congrArg (completes s) (answer_word2R _ (op := .mapSegment) rfl u b c).symm
  | unmapSegment u c => exact congrArg (completes s) (answer_word1R _ (op := .unmapSegment) rfl u c).symm
  | output u c => exact congrArg (completes s) (answer_word1R _ (op := .output) rfl u c).symm
  | input u c => exact congrArg (completes s) (answer_word1R _ (op := .input) rfl u c).symm
  | loadProgram u b c => exact congrArg (completes s) (answer_word2R _ (op := .loadProgram) rfl u b c).symm
  | loadValue reg value => exact congrArg (completes s) (answer_wordIMM _ reg value).symm
  | unrecognized14 raw =>
    have hop : xOp raw = 14#4 := by rw [xOp_eq_slice]; exact eq_of_beq hwf
    exact congrArg (completes s) (answer_unrecognized _ hop (by decide)).symm
  | unrecognized15 raw =>
    have hop : xOp raw = 15#4 := by rw [xOp_eq_slice]; exact eq_of_beq hwf
    exact congrArg (completes s) (answer_unrecognized _ hop (by decide)).symm

/-- Everything a step can do: nothing when no word is pending, else take the first pending word off and record the
block's answer for the word of the instruction it decodes to. -/
theorem step_next_cases {s t : State} (h : step s = .next t) :
    (s.pending = [] ∧ t = s) ∨
    ∃ w rest, s.pending = w :: rest ∧
      t = State.record { s with pending := rest } (answer s.hasHighlighter (encode (decodeInstr w))) := by
  unfold step at h
  split at h
  next hfetch =>
    cases h
    exact .inl ⟨(Laws.fetch_eq_none_iff s).1 hfetch, rfl⟩
  next w s' hfetch =>
    obtain ⟨rest, hpending, rfl⟩ := (Laws.fetch_eq_some_iff s s' w).1 hfetch
    rw [exec_eq_completes_answer _ _ (wellFormed_decodeInstr w), Laws.completes_next_iff] at h
    exact .inr ⟨w, rest, hpending, h⟩

/-! ## The invariant of faithful results -/

/-- Recording an answer of the block under the machine's own parameter keeps the results faithful. -/
theorem faithful_record_answer {s : State} (hs : s.Faithful) (w : Word32) :
    (s.record (answer s.hasHighlighter w)).Faithful := by
  intro r hr
  rw [State.record_results, List.mem_append, List.mem_singleton] at hr
  rw [State.record_hasHighlighter]
  obtain hold | rfl := hr
  · exact hs r hold
  · rfl

/-- Settles O40, by the two cases of a step: nothing changes, or an answer of the block is recorded. -/
theorem everyStepKeepsResultsFaithful : Obligations.EveryStepKeepsResultsFaithful := by
  intro s t hs hstep
  obtain ⟨-, rfl⟩ | ⟨w, rest, -, rfl⟩ := step_next_cases hstep
  · exact hs
  · exact faithful_record_answer (s := { s with pending := rest }) hs _

end Sys2Proof

/-! Proofs of the family `10_state.md`: the table of the six fields. -/

namespace Sys2Proof

open Sys2Proof.Machine

/-- The register fields of a three-register word lie end to end, C then B then A, so no bit belongs to two of them. -/
theorem registerFields_adjacent :
    fieldRC.lsb + fieldRC.width = fieldRB.lsb ∧ fieldRB.lsb + fieldRB.width = fieldRA.lsb :=
  ⟨rfl, rfl⟩

/-- Settles O1, row by row of the table of R19: each descriptor is defined with its row's two numbers. -/
theorem fieldTableHasTheSixFields : Obligations.FieldTableHasTheSixFields := by
  refine ⟨?op, ?ra, ?rb, ?rc, ?rl, ?vl, registerFields_adjacent⟩
  case op => exact ⟨rfl, rfl⟩
  case ra => exact ⟨rfl, rfl⟩
  case rb => exact ⟨rfl, rfl⟩
  case rc => exact ⟨rfl, rfl⟩
  case rl => exact ⟨rfl, rfl⟩
  case vl => exact ⟨rfl, rfl⟩

end Sys2Proof

/-! Proofs of the family `20_memory.md`: words and instructions are each other's encodings, the byte order of the
loader's stream (R26, R27), the batch (R33) and the report (R28). -/

namespace Sys2Proof

open Sys2Proof.Machine

/-! ## A word is put together again from its fields (R39 to R43) -/

/-- Two slices that lie end to end make one slice. -/
theorem slice_append_slice (w : Word32) (lsb m n : Nat) :
    w.extractLsb' (lsb + n) m ++ w.extractLsb' lsb n = w.extractLsb' lsb (m + n) :=
  BitVec.extractLsb'_append_extractLsb'_eq_extractLsb' rfl

theorem word3R_fields (w : Word32) : word3R (xOp w) (unused3R w) (xRa w) (xRb w) (xRc w) = w := by
  rw [xOp_eq_slice, xRa_eq_slice, xRb_eq_slice, xRc_eq_slice, word3R, unused3R, slice_append_slice w 9 4 19,
    slice_append_slice w 6 (4 + 19) 3, slice_append_slice w 3 (4 + 19 + 3) 3, slice_append_slice w 0 (4 + 19 + 3 + 3) 3]
  exact BitVec.extractLsb'_eq_self

theorem word2R_fields (w : Word32) : word2R (xOp w) (unused2R w) (xRb w) (xRc w) = w := by
  rw [xOp_eq_slice, xRb_eq_slice, xRc_eq_slice, word2R, unused2R, slice_append_slice w 6 4 22,
    slice_append_slice w 3 (4 + 22) 3, slice_append_slice w 0 (4 + 22 + 3) 3]
  exact BitVec.extractLsb'_eq_self

theorem word1R_fields (w : Word32) : word1R (xOp w) (unused1R w) (xRc w) = w := by
  rw [xOp_eq_slice, xRc_eq_slice, word1R, unused1R, slice_append_slice w 3 4 25, slice_append_slice w 0 (4 + 25) 3]
  exact BitVec.extractLsb'_eq_self

theorem wordH_fields (w : Word32) : wordH (xOp w) (unusedH w) = w := by
  rw [xOp_eq_slice, wordH, unusedH, slice_append_slice w 0 4 28]
  exact BitVec.extractLsb'_eq_self

theorem wordIMM_fields (w : Word32) : wordIMM (xOp w) (xRl w) (xVl w) = w := by
  rw [xOp_eq_slice, xRl_eq_slice, xVl_eq_slice, wordIMM, slice_append_slice w 25 4 3, slice_append_slice w 0 (4 + 3) 25]
  exact BitVec.extractLsb'_eq_self

/-- Encoding loses nothing of a word: its row's OP is the word's own, and the fields are put back where they were. -/
@[simp] theorem encode_decodeInstr (w : Word32) : encode (decodeInstr w) = w := by
  obtain ⟨op, hop, hclass⟩ | ⟨-, hclass⟩ := classify_cases w
  · rw [decodeInstr, hclass]
    cases op with
    | cMov | load | store | add | mul | div | nand =>
      calc _ = word3R (xOp w) (unused3R w) (xRa w) (xRb w) (xRc w) := by rw [hop]; rfl
        _ = w := word3R_fields w
    | mapSegment | loadProgram =>
      calc _ = word2R (xOp w) (unused2R w) (xRb w) (xRc w) := by rw [hop]; rfl
        _ = w := word2R_fields w
    | unmapSegment | output | input =>
      calc _ = word1R (xOp w) (unused1R w) (xRc w) := by rw [hop]; rfl
        _ = w := word1R_fields w
    | halt =>
      calc _ = wordH (xOp w) (unusedH w) := by rw [hop]; rfl
        _ = w := wordH_fields w
    | loadValue =>
      calc _ = wordIMM (xOp w) (xRl w) (xVl w) := by rw [hop]; rfl
        _ = w := wordIMM_fields w
  · simp only [decodeInstr, hclass]
    split <;> rfl

/-! ## The unused bits of an encoded word (R39 to R42) -/

@[simp] theorem unused3R_word3R (op : U4) (u : BitVec 19) (a b c : U3) : unused3R (word3R op u a b c) = u :=
  slice_eq_of_getLsbD fun i hi => by
    rw [Laws.getLsbD_word3R, if_neg (by omega), if_neg (by omega), if_neg (by omega), if_pos (by omega),
      Nat.add_sub_cancel_left]

@[simp] theorem unused2R_word2R (op : U4) (u : BitVec 22) (b c : U3) : unused2R (word2R op u b c) = u :=
  slice_eq_of_getLsbD fun i hi => by
    rw [Laws.getLsbD_word2R, if_neg (by omega), if_neg (by omega), if_pos (by omega), Nat.add_sub_cancel_left]

@[simp] theorem unused1R_word1R (op : U4) (u : BitVec 25) (c : U3) : unused1R (word1R op u c) = u :=
  slice_eq_of_getLsbD fun i hi => by
    rw [Laws.getLsbD_word1R, if_neg (by omega), if_pos (by omega), Nat.add_sub_cancel_left]

@[simp] theorem unusedH_wordH (op : U4) (u : BitVec 28) : unusedH (wordH op u) = u :=
  slice_eq_of_getLsbD fun i hi => by
    rw [Laws.getLsbD_wordH, if_pos (by omega), Nat.zero_add]

/-- A well-formed instruction is read back from its word: the OP field chooses the row, the slices are the operands. -/
theorem decodeInstr_encode {i : Instr} (hwf : i.wellFormed = true) : decodeInstr (encode i) = i := by
  cases i with
  | cMov | load | store | add | mul | div | nand | halt | mapSegment | unmapSegment | output | input | loadProgram
  | loadValue => simp [decodeInstr, classify, opcodeOfCode, encode]
  | unrecognized14 raw =>
    have hop : xOp raw = 14#4 := by rw [xOp_eq_slice]; exact eq_of_beq hwf
    have hclass : classify raw = .unrecognized raw := classify_of_fourteen_le_xOp (by rw [hop]; decide)
    simp [decodeInstr, encode, hclass, hop]
  | unrecognized15 raw =>
    have hop : xOp raw = 15#4 := by rw [xOp_eq_slice]; exact eq_of_beq hwf
    have hclass : classify raw = .unrecognized raw := classify_of_fourteen_le_xOp (by rw [hop]; decide)
    simp [decodeInstr, encode, hclass, hop]

/-! ## Words as four bytes, the most significant first (R26) -/

/-- Bit `i` of the word comes from the one byte of the four that covers it. -/
@[simp] theorem wordOfBytes_slices (w : Word32) :
    wordOfBytes (w.extractLsb' 24 8) (w.extractLsb' 16 8) (w.extractLsb' 8 8) (w.extractLsb' 0 8) = w := by
  apply BitVec.eq_of_getLsbD_eq
  intro i hi
  simp only [wordOfBytes, BitVec.getLsbD_or, BitVec.getLsbD_shiftLeft, BitVec.getLsbD_setWidth,
    BitVec.getLsbD_extractLsb']
  grind

/-- A byte of the word moved to its place loses no bit. -/
theorem toNat_byte_shiftLeft (b : Byte) {k : Nat} (hk : k ≤ 24) : (b.setWidth 32 <<< k).toNat = b.toNat <<< k := by
  have hlt : b.toNat * 2 ^ k < 2 ^ 32 :=
    calc b.toNat * 2 ^ k < 2 ^ 8 * 2 ^ k := Nat.mul_lt_mul_of_pos_right b.isLt (Nat.two_pow_pos k)
      _ = 2 ^ (8 + k) := (Nat.pow_add 2 8 k).symm
      _ ≤ 2 ^ 32 := Nat.pow_le_pow_right (by decide) (by omega)
  rw [BitVec.toNat_shiftLeft, BitVec.toNat_setWidth_of_le (by decide), Nat.shiftLeft_eq, Nat.mod_eq_of_lt hlt]

theorem toNat_wordOfBytes (b0 b1 b2 b3 : Byte) :
    (wordOfBytes b0 b1 b2 b3).toNat =
      (b0.toNat <<< 24) ||| (b1.toNat <<< 16) ||| (b2.toNat <<< 8) ||| b3.toNat := by
  rw [wordOfBytes, BitVec.toNat_or, BitVec.toNat_or, BitVec.toNat_or, toNat_byte_shiftLeft b0 (by decide),
    toNat_byte_shiftLeft b1 (by decide), toNat_byte_shiftLeft b2 (by decide),
    BitVec.toNat_setWidth_of_le (by decide)]

theorem decodeBytes_bytesOfWord_append (w : Word32) (rest : List Byte) :
    decodeBytes (bytesOfWord w ++ rest) = .ok (decodeInstr w, rest) := by
  simp [bytesOfWord, decodeBytes]

theorem decodeBytes_of_length_lt_four {bytes : List Byte} (h : bytes.length < 4) :
    decodeBytes bytes = .error (.remainder bytes.length) := by
  match bytes, h with
  | [], _ | [_], _ | [_, _], _ | [_, _, _], _ => rfl

/-- At the full width the table's number of a word is the word. -/
theorem decodeTableWord_toNat (w : Word32) : decodeTableWord 32 w.toNat = some (decodeInstr w) := by
  have hword : tableWord 32 w.toNat = w := by simp [tableWord, Nat.mod_eq_of_lt w.isLt]
  have hread : decodeBytes (bytesOfWord w) = .ok (decodeInstr w, []) := by
    simpa using decodeBytes_bytesOfWord_append w []
  simp [decodeTableWord, hword, hread]

/-- Settles O10, from the round trips of the bytes of a word and of the word of an instruction. -/
theorem byteDecodingIsBigEndianAndTotal : Obligations.ByteDecodingIsBigEndianAndTotal := by
  refine ⟨fun i rest hwf => ⟨?bytes, ?table⟩, fun bytes hshort => decodeBytes_of_length_lt_four hshort⟩
  case bytes => rw [encodeBytes, decodeBytes_bytesOfWord_append, decodeInstr_encode hwf]
  case table => rw [decodeTableWord_toNat, decodeInstr_encode hwf]

/-! ## The loader (R25 to R27) -/

/-- Induction along the loader's stream, four bytes at a time. -/
theorem byteStream_induction {motive : List Byte → Prop}
    (short : ∀ bytes : List Byte, bytes.length < 4 → motive bytes)
    (word : ∀ b0 b1 b2 b3 rest, motive rest → motive (b0 :: b1 :: b2 :: b3 :: rest)) :
    ∀ bytes, motive bytes
  | [] => short [] (by simp)
  | [b0] => short [b0] (by simp)
  | [b0, b1] => short [b0, b1] (by simp)
  | [b0, b1, b2] => short [b0, b1, b2] (by simp)
  | b0 :: b1 :: b2 :: b3 :: rest => word b0 b1 b2 b3 rest (byteStream_induction short word rest)

theorem length_wordsOfBytes (bytes : List Byte) : (wordsOfBytes bytes).length = bytes.length / 4 := by
  induction bytes using byteStream_induction with
  | short bytes h => simp [Laws.loader_short bytes h, Nat.div_eq_of_lt h]
  | word b0 b1 b2 b3 rest ih =>
    simp only [Laws.wordsOfBytes_cons, List.length_cons, ih]
    omega

theorem remainderBytes_eq_drop (bytes : List Byte) :
    remainderBytes bytes = bytes.drop (4 * (bytes.length / 4)) := by
  induction bytes using byteStream_induction with
  | short bytes h => simp [Laws.loader_short bytes h, Nat.div_eq_of_lt h]
  | word b0 b1 b2 b3 rest ih =>
    have hwords : 4 * ((b0 :: b1 :: b2 :: b3 :: rest).length / 4) = 4 * (rest.length / 4) + 4 := by
      simp only [List.length_cons]
      omega
    rw [hwords, remainderBytes, ih]
    rfl

theorem getElem?_wordsOfBytes {bytes : List Byte} {k : Nat} {b0 b1 b2 b3 : Byte}
    (h0 : bytes[4 * k]? = some b0) (h1 : bytes[4 * k + 1]? = some b1)
    (h2 : bytes[4 * k + 2]? = some b2) (h3 : bytes[4 * k + 3]? = some b3) :
    (wordsOfBytes bytes)[k]? = some (wordOfBytes b0 b1 b2 b3) := by
  induction bytes using byteStream_induction generalizing k with
  | short bytes h =>
    obtain ⟨hlt, -⟩ := List.getElem?_eq_some_iff.1 h3
    omega
  | word c0 c1 c2 c3 rest ih =>
    rw [Laws.wordsOfBytes_cons]
    cases k with
    | zero =>
      cases h0; cases h1; cases h2; cases h3
      rfl
    | succ k => exact ih h0 h1 h2 h3

theorem wordsOfBytes_bytesOfWord_append (w : Word32) (bytes : List Byte) :
    wordsOfBytes (bytesOfWord w ++ bytes) = w :: wordsOfBytes bytes := by
  simp [bytesOfWord]

/-- The loader reads a written-out word sequence back, and a remainder adds no word. -/
theorem wordsOfBytes_bytesOfWords_append (ws : List Word32) {tail : List Byte} (h : tail.length < 4) :
    wordsOfBytes (bytesOfWords ws ++ tail) = ws := by
  induction ws with
  | nil => exact (Laws.loader_short tail h).1
  | cons w ws ih =>
    calc wordsOfBytes (bytesOfWords (w :: ws) ++ tail)
        = wordsOfBytes (bytesOfWord w ++ (bytesOfWords ws ++ tail)) := by simp [bytesOfWords]
      _ = w :: ws := by rw [wordsOfBytes_bytesOfWord_append, ih]

/-- Settles O57, by induction along the stream, four bytes at a time. -/
theorem loaderDeliversBigEndianWords : Obligations.LoaderDeliversBigEndianWords := by
  refine ⟨fun bytes => ⟨length_wordsOfBytes bytes, remainderBytes_eq_drop bytes, ?word⟩,
    fun ws tail htail => wordsOfBytes_bytesOfWords_append ws htail⟩
  intro k b0 b1 b2 b3 h0 h1 h2 h3
  rw [getElem?_wordsOfBytes h0 h1 h2 h3, Option.map_some, toNat_wordOfBytes]

/-! ## Steps and runs over the pending words (R33) -/

@[simp] theorem answer_word (has : Bool) (w : Word32) : (answer has w).word = w := rfl
@[simp] theorem answer_decoded (has : Bool) (w : Word32) : (answer has w).decoded = decode w := rfl
@[simp] theorem answer_text (has : Bool) (w : Word32) : (answer has w).text = render w := rfl

theorem step_of_pending_nil {s : State} (h : s.pending = []) : step s = .next s := by
  rw [step, (Laws.fetch_eq_none_iff s).2 h]

theorem step_of_pending_cons {s : State} {w : Word32} {rest : List Word32} (h : s.pending = w :: rest) :
    step s = .next (State.record { s with pending := rest } (answer s.hasHighlighter w)) := by
  rw [step, (Laws.fetch_eq_some_iff s _ w).2 ⟨rest, h, rfl⟩]
  simp only [exec_eq_completes_answer _ _ (wellFormed_decodeInstr w), encode_decodeInstr, completes]

/-- Settles O42, by the two cases of a step: nothing is pending and nothing changes, or the first pending word moves to
the end of the results. -/
theorem stepKeepsTheParameterAndTheHistory : Obligations.StepKeepsTheParameterAndTheHistory := by
  intro s t hstep
  obtain ⟨hpending, rfl⟩ | ⟨w, rest, hpending, rfl⟩ := step_next_cases hstep
  · exact ⟨rfl, by simp [hpending], ⟨[], List.append_nil _⟩, by simp [hpending], rfl⟩
  · exact ⟨rfl, by simp [hpending], ⟨[_], rfl⟩, by simp [hpending], by simp [hpending]⟩

/-- The state after the first `n` pending words have been presented: the form the runs are compared with. -/
def Machine.State.afterWords (s : State) (n : Nat) : State where
  hasHighlighter := s.hasHighlighter
  wordI := ((s.pending.take n).getLast?).getD s.wordI
  pending := s.pending.drop n
  results := s.results ++ (s.pending.take n).map (answer s.hasHighlighter)

theorem Machine.State.afterWords_zero (s : State) : s.afterWords 0 = s := by
  simp [State.afterWords]

theorem Machine.State.afterWords_of_pending_nil {s : State} (h : s.pending = []) (n : Nat) : s.afterWords n = s := by
  simp only [State.afterWords, h, List.take_nil, List.drop_nil, List.getLast?_nil, Option.getD_none, List.map_nil,
    List.append_nil]
  rw [← h]

theorem Machine.State.afterWords_succ {s : State} {w : Word32} {rest : List Word32} (h : s.pending = w :: rest)
    (n : Nat) :
    s.afterWords (n + 1) =
      (State.record { s with pending := rest } (answer s.hasHighlighter w)).afterWords n := by
  simp [State.afterWords, h, List.getLast?_cons]

theorem run_succ_of_step {s t : State} (h : step s = .next t) (n : Nat) :
    Host.Core.run core (n + 1) s = Host.Core.run core n t := by
  have hcore : core.step s = .next t := h
  simp only [Host.Core.run, hcore]

/-- `n` steps present the first `n` pending words, or all of them when there are fewer. -/
theorem run_eq_afterWords (n : Nat) (s : State) : Host.Core.run core n s = .next (s.afterWords n) := by
  induction n generalizing s with
  | zero => rw [State.afterWords_zero]; rfl
  | succ n ih =>
    cases hpending : s.pending with
    | nil =>
      rw [run_succ_of_step (step_of_pending_nil hpending), ih, State.afterWords_of_pending_nil hpending,
        State.afterWords_of_pending_nil hpending]
    | cons w rest =>
      rw [run_succ_of_step (step_of_pending_cons hpending), ih, State.afterWords_succ hpending]

/-- Settles O39: the run presents the first words one by one, and from reset a whole batch is its first words. -/
theorem runOfABatchIsTheMapOverItsWords : Obligations.RunOfABatchIsTheMapOverItsWords := by
  refine ⟨run_eq_afterWords, fun ws => ⟨_, run_eq_afterWords ws.length (State.reset.supply ws), ?_⟩⟩
  simp [State.afterWords, decodeSeq, renderSeq]

/-! ## The report (R28) -/

/-- Settles O58: the report maps each position and its word to a line, and the binary item stands exactly when it is
shown and the highlighter exists. -/
theorem reportHasOneLinePerWord : Obligations.ReportHasOneLinePerWord := by
  intro format has shown ws
  refine ⟨List.length_mapIdx, fun k w hw => ?_⟩
  have hline : (reportLines format has shown ws)[k]? = some (format (reportItems has shown k w)) := by
    simp [reportLines, hw]
  rw [hline]
  match has, shown with
  | true, some _ => rfl
  | true, none => rfl
  | false, _ => rfl

end Sys2Proof

/-! Proofs of the family `30_encoding.md`: every word is exactly one instruction (R51), and the OP field alone selects
the opcode, the shape and the format (R53). -/

namespace Sys2Proof

open Sys2Proof.Machine

/-! ## A word and its instruction have one decode result (R49, R63) -/

/-- The instruction of a word and the datapath read the same row and the same operand fields. -/
@[simp] theorem toDecoded_decodeInstr (w : Word32) : (decodeInstr w).toDecoded = decode w := by
  obtain ⟨op, hop, hclass⟩ | ⟨hle, hclass⟩ := classify_cases w
  · rw [decodeInstr, hclass, decode_of_xOp_eq_code hop]
    cases op <;> rfl
  · rw [decode_of_fourteen_le_xOp hle]
    simp only [decodeInstr, hclass]
    split <;> rfl

/-- Settles O9, from the round trip in both directions: a well-formed instruction whose word is `w` is read back from
`w`, so it is the one `w` decodes to. -/
theorem everyWordIsExactlyOneInstruction : Obligations.EveryWordIsExactlyOneInstruction := by
  intro w
  refine ⟨wellFormed_decodeInstr w, encode_decodeInstr w, toDecoded_decodeInstr w, fun i hwf hword => ?unique⟩
  case unique => rw [← hword, decodeInstr_encode hwf]

/-! ## The OP field decides the classification (R59) -/

theorem classify_eq_known_iff (w : Word32) (op : Opcode) : classify w = .known op ↔ xOp w = op.code := by
  refine ⟨fun h => ?_, classify_of_xOp_eq_code⟩
  obtain ⟨op', hop, hclass⟩ | ⟨-, hclass⟩ := classify_cases w <;> rw [hclass] at h <;> cases h
  exact hop

theorem classify_eq_unrecognized_iff (w : Word32) : classify w = .unrecognized w ↔ xOp w = 14#4 ∨ xOp w = 15#4 := by
  have hcodes : ∀ code : U4, 14#4 ≤ code ↔ code = 14#4 ∨ code = 15#4 := by decide
  rw [← hcodes]
  refine ⟨fun h => ?_, classify_of_fourteen_le_xOp⟩
  obtain ⟨op, -, hclass⟩ | ⟨hle, -⟩ := classify_cases w
  · rw [hclass] at h
    cases h
  · exact hle

/-! ## The mask 0xF0000000 keeps exactly the OP field (R53) -/

/-- A code shifted to the top of the word is the word of format H whose unused bits are 0. -/
theorem setWidth_shiftLeft_eq_wordH (code : U4) : code.setWidth 32 <<< 28 = wordH code 0#28 := by
  revert code; decide

/-- The mask cut where format H cuts the word: ones over OP, zeros over the rest. -/
theorem and_opMask (w : Word32) : w &&& 0xF0000000#32 = wordH (xOp w) 0#28 :=
  calc w &&& 0xF0000000#32
    _ = wordH (xOp w) (unusedH w) &&& wordH (BitVec.allOnes 4) 0#28 := by rw [wordH_fields]; rfl
    _ = wordH (xOp w &&& BitVec.allOnes 4) (unusedH w &&& 0#28) := BitVec.and_append
    _ = wordH (xOp w) 0#28 := by rw [BitVec.and_allOnes, BitVec.and_zero]

theorem wordH_zero_inj {code code' : U4} : wordH code 0#28 = wordH code' 0#28 ↔ code = code' :=
  ⟨fun h => by simpa using congrArg xOp h, fun h => h ▸ rfl⟩

theorem and_opMask_eq_iff (w : Word32) (code : U4) :
    w &&& 0xF0000000#32 = code.setWidth 32 <<< 28 ↔ xOp w = code := by
  rw [and_opMask, setWidth_shiftLeft_eq_wordH, wordH_zero_inj]

theorem xOp_eq_of_and_opMask_eq {w w' : Word32} (h : w &&& 0xF0000000#32 = w' &&& 0xF0000000#32) :
    xOp w = xOp w' := by
  rwa [and_opMask, and_opMask, wordH_zero_inj] at h

/-! ## What two words of one OP field share (R53) -/

/-- The spans of a shape are positions and not values: the operands do not reach them. -/
theorem spansOf_operands_congr (op : Opcode) (shape : Shape) (w w' : Word32) :
    spansOf (.instr op (operands shape w)) = spansOf (.instr op (operands shape w')) := by
  cases shape <;> rfl

theorem shape_and_spans_eq_of_xOp_eq {w w' : Word32} (h : xOp w = xOp w') :
    shapeOf (decode w) = shapeOf (decode w') ∧ spans w = spans w' := by
  rw [spans, spans]
  obtain ⟨op, hop, -⟩ | ⟨hle, -⟩ := classify_cases w
  · rw [decode_of_xOp_eq_code hop, decode_of_xOp_eq_code (h ▸ hop)]
    exact ⟨rfl, spansOf_operands_congr op (layoutFor op) w w'⟩
  · rw [decode_of_fourteen_le_xOp hle, decode_of_fourteen_le_xOp (h ▸ hle)]
    exact ⟨rfl, rfl⟩

/-- Settles O5: the masked word says exactly what the OP field is, and the OP field alone selects. -/
theorem selectionUsesTheOpcodeFieldOnly : Obligations.SelectionUsesTheOpcodeFieldOnly := by
  refine ⟨fun w op => ?known, fun w => ?unrecognized, fun w w' hmask => ?same⟩
  case known => rw [classify_eq_known_iff, and_opMask_eq_iff]
  case unrecognized =>
    rw [classify_eq_unrecognized_iff, ← and_opMask_eq_iff, ← and_opMask_eq_iff]
    rfl
  case same =>
    have hop : xOp w = xOp w' := xOp_eq_of_and_opMask_eq hmask
    refine ⟨fun op => ?_, shape_and_spans_eq_of_xOp_eq hop⟩
    rw [classify_eq_known_iff, classify_eq_known_iff, hop]

end Sys2Proof

/-! Proofs of the family `40_decoder_datapath.md`: the Field Extractor, the Opcode Classifier, the Layout Resolver, the
decode ports as a function of the decode result (R70), and the block as what a step records (R64). -/

namespace Sys2Proof

open Sys2Proof.Machine

/-! ## The Field Extractor (R55 to R58) -/

theorem extract_lt_two_pow (f : Field) (w : Word32) : extract f w < 2 ^ f.width := by
  rw [extract, Nat.one_shiftLeft, Nat.and_two_pow_sub_one_eq_mod]
  exact Nat.mod_lt _ (Nat.two_pow_pos f.width)

/-- An extraction loses nothing when it is read as a word of its field's width. -/
theorem toNat_ofNat_extract (f : Field) (w : Word32) : (BitVec.ofNat f.width (extract f w)).toNat = extract f w := by
  rw [BitVec.toNat_ofNat, Nat.mod_eq_of_lt (extract_lt_two_pow f w)]

/-- Settles O2: the mask bounds the extraction, and as a word of the field's width it is the slice. -/
theorem extractionIsTheSliceAndInRange : Obligations.ExtractionIsTheSliceAndInRange := by
  intro f w
  refine ⟨extract_lt_two_pow f w, ?slice⟩
  case slice => rw [← ofNat_extract, toNat_ofNat_extract]

/-- Settles O3: each of the six is the general extraction at its own field's width and position. -/
theorem sixExtractionsAreShiftMaskAndSlice : Obligations.SixExtractionsAreShiftMaskAndSlice := by
  intro w
  refine ⟨⟨?op, xOp_eq_slice w⟩, ⟨?ra, xRa_eq_slice w⟩, ⟨?rb, xRb_eq_slice w⟩, ⟨?rc, xRc_eq_slice w⟩,
    ⟨?rl, xRl_eq_slice w⟩, ⟨?vl, xVl_eq_slice w⟩⟩
  case op => exact toNat_ofNat_extract fieldOP w
  case ra => exact toNat_ofNat_extract fieldRA w
  case rb => exact toNat_ofNat_extract fieldRB w
  case rc => exact toNat_ofNat_extract fieldRC w
  case rl => exact toNat_ofNat_extract fieldRL w
  case vl => exact toNat_ofNat_extract fieldVL w

/-! ## The Opcode Classifier and the Layout Resolver (R59 to R63) -/

/-- The opcodes in the order of R14. -/
def opcodesInOrder : List Opcode :=
  [.cMov, .load, .store, .add, .mul, .div, .nand, .halt, .mapSegment, .unmapSegment, .output, .input, .loadProgram,
    .loadValue]

/-- The position of an opcode in the list is its code. -/
theorem toNat_code_opcodesInOrder : ∀ k : Fin 14, (opcodesInOrder[k.val]'k.isLt).code.toNat = k.val := by decide

/-- Settles O4: a code below 14 is the code of the opcode at its position, and any other names none. -/
theorem classifyFollowsTheOpcodeTable : Obligations.ClassifyFollowsTheOpcodeTable := by
  refine ⟨fun w k hk => ?known, fun w hle => ?unrecognized⟩
  case known =>
    rw [← xOp_eq_slice] at hk
    have hop : xOp w = (opcodesInOrder[k.val]'k.isLt).code :=
      BitVec.eq_of_toNat_eq (hk.trans (toNat_code_opcodesInOrder k).symm)
    exact classify_of_xOp_eq_code hop
  case unrecognized =>
    rw [← xOp_eq_slice] at hle
    exact classify_of_fourteen_le_xOp hle

/-- Settles O6, shape by shape of the table of R60. -/
theorem layoutForFollowsTheShapeTable : Obligations.LayoutForFollowsTheShapeTable := by
  refine ⟨?three, ?two, ?one, rfl, rfl⟩
  case three => decide
  case two => decide
  case one => decide

@[simp] theorem shape_operands (shape : Shape) (w : Word32) : (operands shape w).shape = shape := by
  cases shape <;> rfl

/-- Settles O7: the classification chooses the decode result, and the operands are cut out by the shape. -/
theorem decodeTakesExactlyTheFieldsOfTheShape : Obligations.DecodeTakesExactlyTheFieldsOfTheShape := by
  refine ⟨fun w op hclass => ?known, fun w raw hclass => ?unrecognized, fun w => ?consistent⟩
  case known =>
    rw [decode_of_xOp_eq_code ((classify_eq_known_iff w op).1 hclass)]
    cases layoutFor op with
    | threeRegister => rw [operands, xRa_eq_slice, xRb_eq_slice, xRc_eq_slice]
    | twoRegister => rw [operands, xRb_eq_slice, xRc_eq_slice]
    | oneRegister => rw [operands, xRc_eq_slice]
    | halt => rw [operands]
    | immediate => rw [operands, xRl_eq_slice, xVl_eq_slice]
  case unrecognized =>
    obtain ⟨op, -, hknown⟩ | ⟨hle, -⟩ := classify_cases w
    · rw [hknown] at hclass
      cases hclass
    · exact decode_of_fourteen_le_xOp hle
  case consistent =>
    obtain ⟨op, hop, -⟩ | ⟨hle, -⟩ := classify_cases w
    · rw [decode_of_xOp_eq_code hop]
      exact decide_eq_true (shape_operands (layoutFor op) w)
    · rw [decode_of_fourteen_le_xOp hle]
      rfl

/-! ## Each port by its rule (R65 to R69) -/

@[simp] theorem portsOf_recognizedO (w : Word32) : (portsOf w).recognizedO = recognizedBit w := rfl
@[simp] theorem portsOf_opcodeO (w : Word32) : (portsOf w).opcodeO = xOp w := rfl
@[simp] theorem portsOf_layoutO (w : Word32) : (portsOf w).layoutO = layoutTag (shapeOf (decode w)) := rfl
@[simp] theorem portsOf_validO (w : Word32) : (portsOf w).validO = validBits (shapeOf (decode w)) := rfl
@[simp] theorem portsOf_aO (w : Word32) : (portsOf w).aO = aOut (portsOf w).validO w := rfl
@[simp] theorem portsOf_bO (w : Word32) : (portsOf w).bO = bOut (portsOf w).validO w := rfl
@[simp] theorem portsOf_cO (w : Word32) : (portsOf w).cO = cOut (portsOf w).validO w := rfl
@[simp] theorem portsOf_rlO (w : Word32) : (portsOf w).rlO = rlOut (portsOf w).validO w := rfl
@[simp] theorem portsOf_vlO (w : Word32) : (portsOf w).vlO = vlOut (portsOf w).validO w := rfl
@[simp] theorem portsOf_rawO (w : Word32) : (portsOf w).rawO = rawOut (recognizedBit w) w := rfl

/-! ## `recognized_o` and `opcode_o` (R65) -/

theorem recognizedBit_eq_one_iff (w : Word32) : recognizedBit w = 1#1 ↔ xOp w ≤ 13#4 := by
  rw [recognizedBit]
  split <;> simp_all

theorem recognizedBit_eq_zero_iff (w : Word32) : recognizedBit w = 0#1 ↔ 14#4 ≤ xOp w := by
  have hcodes : ∀ code : U4, ¬ code ≤ 13#4 ↔ 14#4 ≤ code := by decide
  rw [← hcodes, recognizedBit]
  split <;> simp_all

theorem getLsbD_xOp (w : Word32) {i : Nat} (hi : i < 4) : (xOp w).getLsbD i = w.getLsbD (28 + i) := by
  simp [xOp_eq_slice, hi]

/-- `recognized_o` as a gate over the top three bits: the codes 14 and 15 are those with all three set. -/
theorem recognizedBit_eq_ofBool (w : Word32) :
    recognizedBit w = BitVec.ofBool (!(w.getLsbD 31 && w.getLsbD 30 && w.getLsbD 29)) := by
  have hcodes : ∀ code : U4, (if code ≤ 13#4 then 1#1 else 0#1) =
      BitVec.ofBool (!(code.getLsbD 3 && code.getLsbD 2 && code.getLsbD 1)) := by decide
  rw [← getLsbD_xOp w (i := 3) (by decide), ← getLsbD_xOp w (i := 2) (by decide),
    ← getLsbD_xOp w (i := 1) (by decide)]
  exact hcodes (xOp w)

theorem toNat_xOp (w : Word32) : (xOp w).toNat = w.toNat / 2 ^ 28 := by
  have hlt : w.toNat / 2 ^ 28 < 2 ^ 4 := Nat.div_lt_of_lt_mul w.isLt
  rw [xOp_eq_slice, BitVec.extractLsb'_toNat, Nat.shiftRight_eq_div_pow, Nat.mod_eq_of_lt hlt]

theorem xOp_le_thirteen_iff (w : Word32) : xOp w ≤ 13#4 ↔ w.toNat < 0xE0000000 := by
  rw [BitVec.le_def, toNat_xOp, show (13#4).toNat = 13 from rfl]
  omega

/-- Settles O13: each form of `recognized_o` is a reading of the OP field, which `opcode_o` carries. -/
theorem recognizedAndOpcodePortsFollowTheOpField : Obligations.RecognizedAndOpcodePortsFollowTheOpField := by
  intro w
  simp only [portsOf_recognizedO, portsOf_opcodeO, ← xOp_eq_slice]
  refine ⟨trivial, recognizedBit_eq_one_iff w, ?zero, recognizedBit_eq_ofBool w, ?below, fun hrec => ?opcode⟩
  case zero =>
    have hcodes : ∀ code : U4, 14#4 ≤ code ↔ code = 14#4 ∨ code = 15#4 := by decide
    exact (recognizedBit_eq_zero_iff w).trans (hcodes (xOp w))
  case below => rw [recognizedBit_eq_one_iff, xOp_le_thirteen_iff]
  case opcode =>
    obtain ⟨op, hop, hclass⟩ | ⟨hle, -⟩ := classify_cases w
    · exact ⟨op, hclass, hop.symm⟩
    · rw [(recognizedBit_eq_zero_iff w).2 hle] at hrec
      cases hrec

/-! ## `layout_o` and `valid_o` (R66, R67) -/

theorem layoutTag_ne_five_and_ne_six (shape : Option Shape) : layoutTag shape ≠ 5#3 ∧ layoutTag shape ≠ 6#3 := by
  match shape with
  | some .threeRegister | some .twoRegister | some .oneRegister | some .halt | some .immediate | none => decide

/-- Settles O14, by the shape of the decode result. -/
theorem layoutPortIsTheShapeTag : Obligations.LayoutPortIsTheShapeTag := by
  intro w
  rw [portsOf_layoutO]
  refine ⟨?tag, layoutTag_ne_five_and_ne_six _⟩
  cases decode w with
  | instr op lay =>
    simp only [shapeOf]
    cases layoutFor op <;> rfl
  | data raw => rfl

/-- Settles O15: the shape selects both the tag and the row. -/
theorem validPortFollowsTheLayoutPort : Obligations.ValidPortFollowsTheLayoutPort := by
  intro w
  rw [portsOf_layoutO, portsOf_validO]
  match shapeOf (decode w) with
  | some .threeRegister | some .twoRegister | some .oneRegister | some .halt | some .immediate | none => decide

/-! ## The ports and the decode result carry the same information (R68 to R70) -/

/-- The family rule R92 for the ports. -/
theorem portsOf_of_fourteen_le_xOp {w : Word32} (h : 14#4 ≤ xOp w) :
    portsOf w =
      { recognizedO := 0, opcodeO := xOp w, layoutO := 7, validO := 0b00000
        aO := 0, bO := 0, cO := 0, rlO := 0, vlO := 0, rawO := w } :=
  congrArg Result.ports (answer_unrecognized false rfl h)

/-- The ports written from the decode result alone: the tags of the shape, the operands of the layout. -/
def portsOfDecoded : Decoded → Ports
  | .instr op lay =>
    { recognizedO := 1
      opcodeO := op.code
      layoutO := layoutTag (some (layoutFor op))
      validO := validBits (some (layoutFor op))
      aO := indexA lay
      bO := indexB lay
      cO := indexC lay
      rlO := indexL lay
      vlO := immediateOf lay
      rawO := 0 }
  | .data raw =>
    { recognizedO := 0, opcodeO := xOp raw, layoutO := 7, validO := 0b00000
      aO := 0, bO := 0, cO := 0, rlO := 0, vlO := 0, rawO := raw }

/-- The decode result read back from the ports: `opcode_o` names the opcode and so the layout, whose operands stand on
the operand outputs; without an opcode the word stands on `raw_o`. -/
def decodedOfPorts (p : Ports) : Decoded :=
  match opcodeOfCode p.opcodeO with
  | some op =>
    .instr op
      (match layoutFor op with
        | .threeRegister => .threeRegister p.aO p.bO p.cO
        | .twoRegister => .twoRegister p.bO p.cO
        | .oneRegister => .oneRegister p.cO
        | .halt => .halt
        | .immediate => .immediate p.rlO p.vlO)
  | none => .data p.rawO

theorem portsOf_eq_portsOfDecoded (w : Word32) : portsOf w = portsOfDecoded (decode w) := by
  obtain ⟨op, hop, -⟩ | ⟨hle, -⟩ := classify_cases w
  · rw [portsOf_of_xOp_eq_code hop, decode_of_xOp_eq_code hop, portsOfDecoded]
    cases layoutFor op <;> rfl
  · rw [portsOf_of_fourteen_le_xOp hle, decode_of_fourteen_le_xOp hle, portsOfDecoded]

theorem decodedOfPorts_portsOf (w : Word32) : decodedOfPorts (portsOf w) = decode w := by
  obtain ⟨op, hop, -⟩ | ⟨hle, -⟩ := classify_cases w
  · rw [portsOf_of_xOp_eq_code hop, decode_of_xOp_eq_code hop]
    simp only [decodedOfPorts, Laws.opcodeOfCode_code]
    cases layoutFor op <;> rfl
  · have hcodes : ∀ code : U4, 14#4 ≤ code → opcodeOfCode code = none := by decide
    rw [portsOf_of_fourteen_le_xOp hle, decode_of_fourteen_le_xOp hle]
    simp only [decodedOfPorts, hcodes _ hle]

/-- Settles O16: each operand output is a gated slice, and together they are the operands of the layout. -/
theorem operandPortsCarryThePayload : Obligations.OperandPortsCarryThePayload := by
  intro w
  refine ⟨?a, ?b, ?c, ?rl, ?vl, ?payload⟩
  case a => rw [portsOf_aO, aOut, gate, xRa_eq_slice]
  case b => rw [portsOf_bO, bOut, gate, xRb_eq_slice]
  case c => rw [portsOf_cO, cOut, gate, xRc_eq_slice]
  case rl => rw [portsOf_rlO, rlOut, gate, xRl_eq_slice]
  case vl => rw [portsOf_vlO, vlOut, gate, xVl_eq_slice]
  case payload =>
    rw [portsOf_eq_portsOfDecoded]
    cases decode w with
    | instr op lay => cases lay <;> rfl
    | data raw => rfl

/-- Settles O17: `raw_o` is the word behind the gate of `recognized_o`. -/
theorem rawPortCarriesUnrecognizedWords : Obligations.RawPortCarriesUnrecognizedWords := by
  intro w
  rw [portsOf_recognizedO, portsOf_rawO]
  refine ⟨fun hrec => ?unrecognized, fun hrec => ?recognized⟩
  case unrecognized =>
    rw [hrec]
    rfl
  case recognized =>
    rw [hrec]
    rfl

/-- Settles O18: `portsOfDecoded` computes the ports from the decode result, and `decodedOfPorts` reads it back. -/
theorem portsAndDecodeResultDetermineEachOther : Obligations.PortsAndDecodeResultDetermineEachOther := by
  refine ⟨fun w w' => ⟨fun hports => ?decoded, fun hdec => ?ports⟩, fun w hrec => ?raw,
    fun w w' _ _ hop => ?shape⟩
  case decoded => rw [← decodedOfPorts_portsOf w, hports, decodedOfPorts_portsOf]
  case ports => rw [portsOf_eq_portsOfDecoded, hdec, ← portsOf_eq_portsOfDecoded]
  case raw =>
    rw [portsOf_of_fourteen_le_xOp ((recognizedBit_eq_zero_iff w).1 hrec)]
    exact xOp_eq_slice w
  case shape =>
    obtain ⟨hshape, -⟩ := shape_and_spans_eq_of_xOp_eq hop
    exact ⟨congrArg layoutTag hshape, congrArg validBits hshape⟩

/-! ## Corner cases (R72) -/

/-- Settles O12, row by row of the table of R72. -/
theorem datapathCornerCases : Obligations.DatapathCornerCases := by
  refine ⟨?allZeros, ?allOnes, ?highestRecognized, ?lowestUnrecognized, ?bit9Of3R, ?bit25Of3R, ?bit8OfIMM,
    ?sameRegister⟩
  case allZeros => exact decode_of_xOp_eq_code (op := .cMov) rfl
  case allOnes =>
    have hle : 14#4 ≤ xOp 0xFFFFFFFF#32 := by decide
    refine ⟨decode_of_fourteen_le_xOp hle, rfl, rfl, rfl, rfl, rfl, rfl, ?_⟩
    rw [portsOf_of_fourteen_le_xOp hle]
    exact ⟨rfl, rfl, rfl, rfl, rfl⟩
  case highestRecognized => exact decode_of_xOp_eq_code (op := .loadValue) rfl
  case lowestUnrecognized => exact decode_of_fourteen_le_xOp (by decide)
  case bit9Of3R => exact decode_of_xOp_eq_code (op := .add) rfl
  case bit25Of3R => exact decode_of_xOp_eq_code (op := .cMov) rfl
  case bit8OfIMM => exact decode_of_xOp_eq_code (op := .loadValue) rfl
  case sameRegister => exact decode_of_xOp_eq_code (op := .add) rfl

/-! ## The rules of the rows and the combinational block answer alike (R63, R64) -/

/-- Settles O38: a step records the block's answer for the word it takes off. -/
theorem stepRefinesTheCombinationalBlock : Obligations.StepRefinesTheCombinationalBlock :=
  fun _ _ _ hpending => step_of_pending_cons hpending

/-- Once recorded, the block's answer for a word is what stands on the outputs: recording drives the word. -/
theorem outputs_record_answer (s : State) (w : Word32) :
    (s.record (answer s.hasHighlighter w)).outputs = answer s.hasHighlighter w := rfl

/-- Settles O44: the outputs are computed from `word_i`, and a step drives the word whose answer it records. -/
theorem outputsFollowTheWordOnTheInput : Obligations.OutputsFollowTheWordOnTheInput := by
  refine ⟨fun s s' hword hhas => ?same, fun s w => ⟨rfl, rfl⟩, fun s w rest hpending => ?recorded⟩
  case same => rw [State.outputs, State.outputs, hword, hhas]
  case recorded =>
    refine ⟨_, step_of_pending_cons hpending, rfl, rfl, ?_⟩
    rw [outputs_record_answer { s with pending := rest } w, State.record_results, List.getLast?_concat]

end Sys2Proof

/-! Proofs of the family `41_three_register.md`: what executing the instruction of a word records, the texts of R74 to
R80 with the register letter joined to the text before it, and the family rule R73 for each of the codes 0 to 6. -/

namespace Sys2Proof

open Sys2Proof.Machine

/-! ## An instruction is executed as the evaluation of its word (R63, R64) -/

/-- Recording the block's answer is the change of state the statements describe, for every word. -/
theorem completes_answer_eq_after (s : State) (w : Word32) :
    completes s (answer s.hasHighlighter w) =
      .next (Expected.after s w (decode w) (portsOf w) (render w) (spans w)) := rfl

/-- An instruction that encodes to a word is the one the word decodes to, and executing it evaluates the block on the
word. -/
theorem decodeInstr_and_exec_of_encode_eq {i : Instr} {w : Word32} (hwf : i.wellFormed = true) (hword : encode i = w)
    (s : State) :
    decodeInstr w = i ∧
      exec i s = .next (Expected.after s w (decode w) (portsOf w) (render w) (spans w)) := by
  subst hword
  exact ⟨decodeInstr_encode hwf, by rw [exec_eq_completes_answer i s hwf, completes_answer_eq_after]⟩

/-! ## The family rule R73 -/

theorem word3R_slices (w : Word32) :
    word3R (xOp w) (w.extractLsb' 9 19) (w.extractLsb' 6 3) (w.extractLsb' 3 3) (w.extractLsb' 0 3) = w := by
  rw [← xRa_eq_slice, ← xRb_eq_slice, ← xRc_eq_slice]
  exact word3R_fields w

theorem decode_threeRegister {w : Word32} {op : Opcode} (h : xOp w = op.code) (hshape : layoutFor op = .threeRegister) :
    decode w = .instr op (.threeRegister (w.extractLsb' 6 3) (w.extractLsb' 3 3) (w.extractLsb' 0 3)) := by
  rw [decode_of_xOp_eq_code h, hshape, operands, xRa_eq_slice, xRb_eq_slice, xRc_eq_slice]

theorem portsOf_threeRegister {w : Word32} {op : Opcode} (h : xOp w = op.code)
    (hshape : layoutFor op = .threeRegister) : portsOf w = Expected.ports3R op.code w := by
  rw [portsOf_of_xOp_eq_code h, hshape, Expected.ports3R, ← xRa_eq_slice, ← xRb_eq_slice, ← xRc_eq_slice]
  rfl

/-- The rule of every member of the family: a word whose OP field is the code of `op` decodes to the instruction `i` of
that row, and executing `i` answers what R73 says. The members differ in the opcode and the text alone. -/
theorem threeRegister_answers {op : Opcode} {w : Word32} {i : Instr} {text : List Byte}
    (hmask : w &&& 0xF0000000#32 = op.code.setWidth 32 <<< 28) (hshape : layoutFor op = .threeRegister)
    (hwf : i.wellFormed = true)
    (hencode : encode i =
      word3R op.code (w.extractLsb' 9 19) (w.extractLsb' 6 3) (w.extractLsb' 3 3) (w.extractLsb' 0 3))
    (htext : textOf (.instr op (.threeRegister (w.extractLsb' 6 3) (w.extractLsb' 3 3) (w.extractLsb' 0 3))) = text)
    (s : State) :
    decodeInstr w = i ∧
      exec i s = .next (Expected.after s w
        (.instr op (.threeRegister (w.extractLsb' 6 3) (w.extractLsb' 3 3) (w.extractLsb' 0 3)))
        (Expected.ports3R op.code w) text Expected.spans3R) := by
  have hop : xOp w = op.code := (and_opMask_eq_iff w op.code).1 hmask
  have hword : encode i = w := by rw [hencode, ← hop, word3R_slices]
  have hdecode := decode_threeRegister hop hshape
  have hrender : render w = text := by rw [render, hdecode, htext]
  have hspans : spans w = Expected.spans3R := by rw [spans, hdecode]; rfl
  rw [← hdecode, ← portsOf_threeRegister hop hshape, ← hrender, ← hspans]
  exact decodeInstr_and_exec_of_encode_eq hwf hword s

/-! ## The texts R74 to R80, with the letter of each register name joined to the text before it (R99) -/

theorem ascii_append (s t : String) : ascii (s ++ t) = ascii s ++ ascii t := by
  simp [ascii]

theorem ascii_append_regName (text : String) (i : U3) :
    ascii text ++ regName i = ascii (text ++ "r") ++ dec i.toNat := by
  rw [regName, ascii_append, List.append_assoc]

theorem append_ascii_append_regName (before : List Byte) (text : String) (i : U3) :
    before ++ ascii text ++ regName i = before ++ ascii (text ++ "r") ++ dec i.toNat := by
  rw [List.append_assoc, ascii_append_regName, List.append_assoc]

/-- R74. -/
theorem textCMov_eq (a b c : U3) :
    textCMov a b c =
      ascii "if (r" ++ dec c.toNat ++ ascii " != 0) r" ++ dec a.toNat ++ ascii " := r" ++ dec b.toNat ++ ascii ";" := by
  rw [textCMov, append_ascii_append_regName, append_ascii_append_regName, ascii_append_regName]
  rfl

/-- R75. -/
theorem textLoad_eq (a b c : U3) :
    textLoad a b c =
      ascii "r" ++ dec a.toNat ++ ascii " := m[r" ++ dec b.toNat ++ ascii "][r" ++ dec c.toNat ++ ascii "];" := by
  rw [textLoad, append_ascii_append_regName, append_ascii_append_regName, regName]
  rfl

/-- R76. -/
theorem textStore_eq (a b c : U3) :
    textStore a b c =
      ascii "m[r" ++ dec a.toNat ++ ascii "][r" ++ dec b.toNat ++ ascii "] := r" ++ dec c.toNat ++ ascii ";" := by
  rw [textStore, append_ascii_append_regName, append_ascii_append_regName, ascii_append_regName]
  rfl

/-- The shared format of R77 to R80: the operator stands between two spaces. -/
theorem textBinary_eq (operator : String) (a b c : U3) :
    textBinary operator a b c =
      ascii "r" ++ dec a.toNat ++ ascii " := r" ++ dec b.toNat ++ ascii (" " ++ operator ++ " r") ++ dec c.toNat ++
        ascii ";" := by
  rw [ascii_append, ascii_append, textBinary, append_ascii_append_regName, append_ascii_append_regName, regName]
  simp only [List.append_assoc]
  rfl

/-! ## The members of the family -/

/-- Settles O20, by the family rule with the text of R74. -/
theorem cMovAnswersAsItsRuleSays : Obligations.CMovAnswersAsItsRuleSays := by
  intro w s hmask
  exact threeRegister_answers (op := .cMov) hmask rfl rfl rfl (textCMov_eq _ _ _) s

/-- Settles O21, by the family rule with the text of R75. -/
theorem loadAnswersAsItsRuleSays : Obligations.LoadAnswersAsItsRuleSays := by
  intro w s hmask
  exact threeRegister_answers (op := .load) hmask rfl rfl rfl (textLoad_eq _ _ _) s

/-- Settles O22, by the family rule with the text of R76. -/
theorem storeAnswersAsItsRuleSays : Obligations.StoreAnswersAsItsRuleSays := by
  intro w s hmask
  exact threeRegister_answers (op := .store) hmask rfl rfl rfl (textStore_eq _ _ _) s

/-- Settles O23, by the family rule with the operator of R77. -/
theorem addAnswersAsItsRuleSays : Obligations.AddAnswersAsItsRuleSays := by
  intro w s hmask
  exact threeRegister_answers (op := .add) hmask rfl rfl rfl (textBinary_eq "+" _ _ _) s

/-- Settles O24, by the family rule with the operator of R78. -/
theorem mulAnswersAsItsRuleSays : Obligations.MulAnswersAsItsRuleSays := by
  intro w s hmask
  exact threeRegister_answers (op := .mul) hmask rfl rfl rfl (textBinary_eq "*" _ _ _) s

/-- Settles O25, by the family rule with the operator of R79. -/
theorem divAnswersAsItsRuleSays : Obligations.DivAnswersAsItsRuleSays := by
  intro w s hmask
  exact threeRegister_answers (op := .div) hmask rfl rfl rfl (textBinary_eq "/" _ _ _) s

/-- Settles O26, by the family rule with the operator of R80. -/
theorem nandAnswersAsItsRuleSays : Obligations.NandAnswersAsItsRuleSays := by
  intro w s hmask
  exact threeRegister_answers (op := .nand) hmask rfl rfl rfl (textBinary_eq "nand" _ _ _) s

end Sys2Proof

/-! Proofs of the family `42_two_register.md`: the family rule R81 for the codes 8 and 12, and the texts of R82 and
R83. -/

namespace Sys2Proof

open Sys2Proof.Machine

/-! ## What an instruction answers, once its word's decode result is known -/

/-- The ports are a function of the word; the text and the spans follow from its decode result alone (R95, R107). -/
theorem answers_of_decode_eq {i : Instr} {w : Word32} {d : Decoded} {ports : Ports} {text : List Byte}
    {cut : List Span} (hwf : i.wellFormed = true) (hword : encode i = w) (hdecode : decode w = d)
    (hports : portsOf w = ports) (htext : textOf d = text) (hspans : spansOf d = cut) (s : State) :
    decodeInstr w = i ∧ exec i s = .next (Expected.after s w d ports text cut) := by
  rw [← htext, ← hspans, ← hports, ← hdecode]
  exact decodeInstr_and_exec_of_encode_eq hwf hword s

/-! ## The family rule R81 -/

theorem word2R_slices (w : Word32) :
    word2R (xOp w) (w.extractLsb' 6 22) (w.extractLsb' 3 3) (w.extractLsb' 0 3) = w := by
  rw [← xRb_eq_slice, ← xRc_eq_slice]
  exact word2R_fields w

theorem decode_twoRegister {w : Word32} {op : Opcode} (h : xOp w = op.code) (hshape : layoutFor op = .twoRegister) :
    decode w = .instr op (.twoRegister (w.extractLsb' 3 3) (w.extractLsb' 0 3)) := by
  rw [decode_of_xOp_eq_code h, hshape, operands, xRb_eq_slice, xRc_eq_slice]

/-- There is no A operand: the gate of `a_o` is closed, so bits 8 to 6 of the word do not reach the ports. -/
theorem portsOf_twoRegister {w : Word32} {op : Opcode} (h : xOp w = op.code)
    (hshape : layoutFor op = .twoRegister) : portsOf w = Expected.ports2R op.code w := by
  rw [portsOf_of_xOp_eq_code h, hshape, Expected.ports2R, ← xRb_eq_slice, ← xRc_eq_slice]
  rfl

/-- The rule of every member of the family: a word whose OP field is the code of `op` decodes to the instruction `i` of
that row, and executing `i` answers what R81 says. The members differ in the opcode and the text alone. -/
theorem twoRegister_answers {op : Opcode} {w : Word32} {i : Instr} {text : List Byte}
    (hmask : w &&& 0xF0000000#32 = op.code.setWidth 32 <<< 28) (hshape : layoutFor op = .twoRegister)
    (hwf : i.wellFormed = true)
    (hencode : encode i = word2R op.code (w.extractLsb' 6 22) (w.extractLsb' 3 3) (w.extractLsb' 0 3))
    (htext : textOf (.instr op (.twoRegister (w.extractLsb' 3 3) (w.extractLsb' 0 3))) = text)
    (s : State) :
    decodeInstr w = i ∧
      exec i s = .next (Expected.after s w
        (.instr op (.twoRegister (w.extractLsb' 3 3) (w.extractLsb' 0 3)))
        (Expected.ports2R op.code w) text Expected.spans2R) := by
  have hop : xOp w = op.code := (and_opMask_eq_iff w op.code).1 hmask
  have hword : encode i = w := by rw [hencode, ← hop, word2R_slices]
  exact answers_of_decode_eq hwf hword (decode_twoRegister hop hshape) (portsOf_twoRegister hop hshape) htext rfl s

/-! ## The texts R82 and R83, with the letter of each register name joined to the text before it (R99) -/

/-- R82. -/
theorem textMapSegment_eq (b c : U3) :
    textMapSegment b c =
      ascii "r" ++ dec b.toNat ++ ascii " := map segment (r" ++ dec c.toNat ++ ascii " words);" := by
  rw [textMapSegment, append_ascii_append_regName, regName]
  rfl

/-- R83: C stands before B. -/
theorem textLoadProgram_eq (b c : U3) :
    textLoadProgram b c =
      ascii "goto r" ++ dec c.toNat ++ ascii " in program m[r" ++ dec b.toNat ++ ascii "];" := by
  rw [textLoadProgram, append_ascii_append_regName, ascii_append_regName]
  rfl

/-! ## The members of the family -/

/-- Settles O28, by the family rule with the text of R82. -/
theorem mapSegmentAnswersAsItsRuleSays : Obligations.MapSegmentAnswersAsItsRuleSays := by
  intro w s hmask
  exact twoRegister_answers (op := .mapSegment) hmask rfl rfl rfl (textMapSegment_eq _ _) s

/-- Settles O32, by the family rule with the text of R83. -/
theorem loadProgramAnswersAsItsRuleSays : Obligations.LoadProgramAnswersAsItsRuleSays := by
  intro w s hmask
  exact twoRegister_answers (op := .loadProgram) hmask rfl rfl rfl (textLoadProgram_eq _ _) s

end Sys2Proof

/-! Proofs of the family `43_one_register.md`: the family rule R84 for the codes 9, 10 and 11, and the texts of R85 to
R87. -/

namespace Sys2Proof

open Sys2Proof.Machine

/-! ## The family rule R84 -/

theorem word1R_slices (w : Word32) : word1R (xOp w) (w.extractLsb' 3 25) (w.extractLsb' 0 3) = w := by
  rw [← xRc_eq_slice]
  exact word1R_fields w

theorem decode_oneRegister {w : Word32} {op : Opcode} (h : xOp w = op.code) (hshape : layoutFor op = .oneRegister) :
    decode w = .instr op (.oneRegister (w.extractLsb' 0 3)) := by
  rw [decode_of_xOp_eq_code h, hshape, operands, xRc_eq_slice]

/-- There is no A and no B operand: the gates of `a_o` and `b_o` are closed, so bits 8 to 3 of the word do not reach the
ports. -/
theorem portsOf_oneRegister {w : Word32} {op : Opcode} (h : xOp w = op.code)
    (hshape : layoutFor op = .oneRegister) : portsOf w = Expected.ports1R op.code w := by
  rw [portsOf_of_xOp_eq_code h, hshape, Expected.ports1R, ← xRc_eq_slice]
  rfl

/-- The rule of every member of the family: a word whose OP field is the code of `op` decodes to the instruction `i` of
that row, and executing `i` answers what R84 says. The members differ in the opcode and the text alone. -/
theorem oneRegister_answers {op : Opcode} {w : Word32} {i : Instr} {text : List Byte}
    (hmask : w &&& 0xF0000000#32 = op.code.setWidth 32 <<< 28) (hshape : layoutFor op = .oneRegister)
    (hwf : i.wellFormed = true)
    (hencode : encode i = word1R op.code (w.extractLsb' 3 25) (w.extractLsb' 0 3))
    (htext : textOf (.instr op (.oneRegister (w.extractLsb' 0 3))) = text)
    (s : State) :
    decodeInstr w = i ∧
      exec i s = .next (Expected.after s w
        (.instr op (.oneRegister (w.extractLsb' 0 3)))
        (Expected.ports1R op.code w) text Expected.spans1R) := by
  have hop : xOp w = op.code := (and_opMask_eq_iff w op.code).1 hmask
  have hword : encode i = w := by rw [hencode, ← hop, word1R_slices]
  exact answers_of_decode_eq hwf hword (decode_oneRegister hop hshape) (portsOf_oneRegister hop hshape) htext rfl s

/-! ## The texts R85 to R87, with the letter of the register name joined to the text before it (R99) -/

/-- R85. -/
theorem textUnmapSegment_eq (c : U3) :
    textUnmapSegment c = ascii "unmap r" ++ dec c.toNat ++ ascii ";" := by
  rw [textUnmapSegment, ascii_append_regName]
  rfl

/-- R86. -/
theorem textOutput_eq (c : U3) :
    textOutput c = ascii "output r" ++ dec c.toNat ++ ascii ";" := by
  rw [textOutput, ascii_append_regName]
  rfl

/-- R87: no text stands before the register name. -/
theorem textInput_eq (c : U3) :
    textInput c = ascii "r" ++ dec c.toNat ++ ascii " := input();" := by
  rw [textInput, regName]

/-! ## The members of the family -/

/-- Settles O29, by the family rule with the text of R85. -/
theorem unmapSegmentAnswersAsItsRuleSays : Obligations.UnmapSegmentAnswersAsItsRuleSays := by
  intro w s hmask
  exact oneRegister_answers (op := .unmapSegment) hmask rfl rfl rfl (textUnmapSegment_eq _) s

/-- Settles O30, by the family rule with the text of R86. -/
theorem outputAnswersAsItsRuleSays : Obligations.OutputAnswersAsItsRuleSays := by
  intro w s hmask
  exact oneRegister_answers (op := .output) hmask rfl rfl rfl (textOutput_eq _) s

/-- Settles O31, by the family rule with the text of R87. -/
theorem inputAnswersAsItsRuleSays : Obligations.InputAnswersAsItsRuleSays := by
  intro w s hmask
  exact oneRegister_answers (op := .input) hmask rfl rfl rfl (textInput_eq _) s

end Sys2Proof

/-! Proofs of the family `44_halt.md`: the rule R89, whose shape has no operand fields (R88). -/

namespace Sys2Proof

open Sys2Proof.Machine

/-! ## The parts of the rule R89 -/

/-- All 28 bits below OP are carried by the term, so its word is the word it was read from. -/
theorem encode_halt_slice {w : Word32} (h : xOp w = Opcode.halt.code) : encode (.halt (w.extractLsb' 0 28)) = w :=
  calc encode (.halt (w.extractLsb' 0 28))
    _ = wordH (xOp w) (unusedH w) := by rw [h]; rfl
    _ = w := wordH_fields w

theorem decode_halt {w : Word32} (h : xOp w = Opcode.halt.code) : decode w = .instr .halt .halt := by
  rw [decode_of_xOp_eq_code h, layoutFor, operands]

/-- There is no operand: every gate is closed, so no bit below OP reaches the ports. -/
theorem portsOf_halt {w : Word32} (h : xOp w = Opcode.halt.code) : portsOf w = Expected.portsH := by
  rw [portsOf_of_xOp_eq_code h, layoutFor]
  rfl

/-! ## The only member of the family -/

/-- Settles O27: the OP field alone fixes the decode result and the ports, and the text and the spans follow from the
decode result. -/
theorem haltAnswersAsItsRuleSays : Obligations.HaltAnswersAsItsRuleSays := by
  intro w s hmask
  have hop : xOp w = Opcode.halt.code := (and_opMask_eq_iff w Opcode.halt.code).1 hmask
  exact answers_of_decode_eq rfl (encode_halt_slice hop) (decode_halt hop) (portsOf_halt hop) rfl rfl s

end Sys2Proof

/-! Proofs of the family `45_immediate.md`: the rule R91, whose word is the OP field, RL and VL (R90). -/

namespace Sys2Proof

open Sys2Proof.Machine

/-! ## The parts of the rule R91 -/

/-- RL and VL are all 28 bits below OP, so the two operands and the code make up the word. -/
theorem encode_loadValue_slices {w : Word32} (h : xOp w = Opcode.loadValue.code) :
    encode (.loadValue (w.extractLsb' 25 3) (w.extractLsb' 0 25)) = w :=
  calc encode (.loadValue (w.extractLsb' 25 3) (w.extractLsb' 0 25))
    _ = wordIMM (xOp w) (xRl w) (xVl w) := by rw [h, xRl_eq_slice, xVl_eq_slice]; rfl
    _ = w := wordIMM_fields w

theorem decode_loadValue {w : Word32} (h : xOp w = Opcode.loadValue.code) :
    decode w = .instr .loadValue (.immediate (w.extractLsb' 25 3) (w.extractLsb' 0 25)) := by
  rw [decode_of_xOp_eq_code h, layoutFor, operands, xRl_eq_slice, xVl_eq_slice]

/-- There is no A, B or C operand: those three gates are closed, so bits 8 to 0 of the word reach the ports inside
`vl_o` alone. -/
theorem portsOf_loadValue {w : Word32} (h : xOp w = Opcode.loadValue.code) : portsOf w = Expected.portsIMM w := by
  rw [portsOf_of_xOp_eq_code h, layoutFor, Expected.portsIMM, ← xRl_eq_slice, ← xVl_eq_slice]
  rfl

/-- The text of R91 starts with the register name, so its letter has no text before it to join (R99). -/
theorem textLoadValue_eq (reg : U3) (value : U25) :
    textLoadValue reg value = ascii "r" ++ dec reg.toNat ++ ascii " := " ++ dec value.toNat ++ ascii ";" := by
  rw [textLoadValue, regName]

/-! ## The only member of the family -/

/-- Settles O33: the OP field alone fixes the row, RL and VL are its operands, and the text and the spans follow from
the decode result. -/
theorem loadValueAnswersAsItsRuleSays : Obligations.LoadValueAnswersAsItsRuleSays := by
  intro w s hmask
  have hop : xOp w = Opcode.loadValue.code := (and_opMask_eq_iff w Opcode.loadValue.code).1 hmask
  exact answers_of_decode_eq rfl (encode_loadValue_slices hop) (decode_loadValue hop) (portsOf_loadValue hop)
    (textLoadValue_eq _ _) rfl s

end Sys2Proof

/-! Proofs of the family `46_unrecognized.md`: the family rule R92 for the codes 14 and 15, whose word is data as a
whole. -/

namespace Sys2Proof

open Sys2Proof.Machine

/-! ## The family rule R92 -/

/-- No layout, so no operand: every gate is closed, and the low 28 bits reach the ports inside `raw_o` alone. -/
theorem portsOf_unrecognized {w : Word32} {code : U4} (h : xOp w = code) (hcode : 14#4 ≤ code) :
    portsOf w = Expected.portsRAW code w := by
  subst h
  exact portsOf_of_fourteen_le_xOp hcode

/-- The rule of both rows: a word whose OP field is `code` decodes to the instruction `i` of that row, which carries the
whole word, and executing `i` answers what R92 says. The rows differ in `opcode_o` alone. -/
theorem unrecognized_answers {code : U4} {w : Word32} {i : Instr} (hcode : 14#4 ≤ code)
    (hmask : w &&& 0xF0000000#32 = code.setWidth 32 <<< 28) (hencode : encode i = w)
    (hrow : i.wellFormed = (w.extractLsb' 28 4 == code)) (s : State) :
    decodeInstr w = i ∧
      exec i s = .next (Expected.after s w
        (.data w) (Expected.portsRAW code w) (ascii ".data 0x" ++ hex8 w) Expected.spansRAW) := by
  have hop : xOp w = code := (and_opMask_eq_iff w code).1 hmask
  have hwf : i.wellFormed = true := by rw [hrow, ← xOp_eq_slice, hop, beq_self_eq_true]
  have hdecode : decode w = .data w := decode_of_fourteen_le_xOp (hop ▸ hcode)
  exact answers_of_decode_eq hwf hencode hdecode (portsOf_unrecognized hop hcode) rfl rfl s

/-! ## The members of the family -/

/-- Settles O34, by the family rule: 14 is the first code that names no opcode. -/
theorem unrecognized14AnswersAsItsRuleSays : Obligations.Unrecognized14AnswersAsItsRuleSays := by
  intro w s hmask
  exact unrecognized_answers (code := 14) (by decide) hmask rfl rfl s

/-- Settles O35, by the family rule: 15 is the last code, so the all-ones word is among its words. -/
theorem unrecognized15AnswersAsItsRuleSays : Obligations.Unrecognized15AnswersAsItsRuleSays := by
  intro w s hmask
  exact unrecognized_answers (code := 15) (by decide) hmask rfl rfl s

end Sys2Proof

/-! Proofs about whole instructions and steps: the round trip from an instruction to its word and back, the one outcome
of every step (`60_exceptions.md` R119), the independence of decodes and the state at reset (`70_reset_and_hazards.md`
R134, R137). -/

namespace Sys2Proof

open Sys2Proof.Machine

/-! ## Instructions and their words -/

/-- Settles O8, from the two readings of the instruction's word: as an instruction, and as that instruction's decode
result. -/
theorem decodingAnEncodedInstructionGivesItBack : Obligations.DecodingAnEncodedInstructionGivesItBack := by
  intro i hwf
  refine ⟨decodeInstr_encode hwf, ?decoded⟩
  case decoded => rw [← toDecoded_decodeInstr, decodeInstr_encode hwf]

theorem decodeInstr_of_encode_eq {i : Instr} {w : Word32} (hwf : i.wellFormed = true) (hword : encode i = w) :
    decodeInstr w = i := by
  rw [← hword, decodeInstr_encode hwf]

/-- Settles O11: each written-out word is the encoding of its instruction. -/
theorem writtenOutWordsDecode : Obligations.WrittenOutWordsDecode := by
  refine ⟨?cMov, ?add, ?mapSegment, ?output, ?halt, ?loadValue, ?code14, ?code15⟩
  case cMov => exact decodeInstr_of_encode_eq rfl rfl
  case add => exact decodeInstr_of_encode_eq rfl rfl
  case mapSegment => exact decodeInstr_of_encode_eq rfl rfl
  case output => exact decodeInstr_of_encode_eq rfl rfl
  case halt => exact decodeInstr_of_encode_eq rfl rfl
  case loadValue => exact decodeInstr_of_encode_eq rfl rfl
  case code14 => exact decodeInstr_of_encode_eq rfl rfl
  case code15 => exact decodeInstr_of_encode_eq rfl rfl

/-! ## What a step runs (R33) -/

theorem step_eq_exec_of_pending_cons {s : State} {w : Word32} {rest : List Word32} (h : s.pending = w :: rest) :
    step s = exec (decodeInstr w) { s with pending := rest } := by
  rw [step, (Laws.fetch_eq_some_iff s _ w).2 ⟨rest, h, rfl⟩]

@[simp] theorem tableWord_toNat (w : Word32) : tableWord 32 w.toNat = w := by
  rw [tableWord, Nat.mod_eq_of_lt w.isLt, BitVec.ofNat_toNat, BitVec.setWidth_eq]

/-- Settles O36: the word handed in by `withFetchWord` is the next one pending, and an encoded instruction is read
back from it. -/
theorem stepRunsTheDecodedInstruction : Obligations.StepRunsTheDecodedInstruction := by
  refine ⟨fun s w rest hpending => ?pending, fun s i hwf => ?handedIn, fun s hempty => step_of_pending_nil hempty⟩
  case pending => exact ⟨wellFormed_decodeInstr w, step_eq_exec_of_pending_cons hpending⟩
  case handedIn =>
    have hpending : (s.withFetchWord 32 (encode i).toNat).pending = encode i :: s.pending := by simp
    rw [step_eq_exec_of_pending_cons hpending, decodeInstr_encode hwf]
    rfl

/-! ## One outcome (R119) -/

/-- The rule of every row is an evaluation that completes, also for a term that stands for no word. -/
theorem exec_eq_completes (i : Instr) (s : State) : ∃ r, exec i s = completes s r := by
  cases i <;> exact ⟨_, rfl⟩

/-- Settles O37: an instruction completes, and a step either runs one or changes nothing. -/
theorem noFaultAndNoRefusal : Obligations.NoFaultAndNoRefusal := by
  refine ⟨fun s => ?step, fun i s => ?exec⟩
  case step =>
    cases hpending : s.pending with
    | nil => exact ⟨s, step_of_pending_nil hpending⟩
    | cons w rest => exact ⟨_, step_of_pending_cons hpending⟩
  case exec =>
    obtain ⟨r, hr⟩ := exec_eq_completes i s
    exact ⟨s.record r, hr⟩

/-! ## Decodes do not influence each other (R137) -/

/-- Settles O43: the recorded result is `answer` of the parameter and the word, and neither the other pending words nor
the results read before are among its arguments. -/
theorem decodesDoNotInfluenceEachOther : Obligations.DecodesDoNotInfluenceEachOther := by
  refine ⟨fun s s' w rest rest' hhas hpending hpending' => ?sameWord, fun s v w rest hpending => ?afterAnother⟩
  case sameWord =>
    refine ⟨_, _, answer s.hasHighlighter w, step_of_pending_cons hpending, step_of_pending_cons hpending', rfl, ?_, ?_⟩
    · rw [State.record_results, hhas]
    · rw [outputs_record_answer { s with pending := rest } w, outputs_record_answer { s' with pending := rest' } w,
        hhas]
  case afterAnother =>
    refine ⟨s.afterWords 2, _, answer s.hasHighlighter w, answer s.hasHighlighter v, run_eq_afterWords 2 s, ?_,
      step_of_pending_cons rfl, rfl⟩
    simp [State.afterWords, hpending]

/-! ## Reset (R132, R134) -/

/-- Settles O41: no result is held at reset. -/
theorem resetIsFaithful : Obligations.ResetIsFaithful := by
  intro r hr
  rw [State.reset_results] at hr
  cases hr

/-- Settles O45: driving a word at reset puts it on `word_i`, of which the ports are a function. -/
theorem resetHoldsNothing : Obligations.ResetHoldsNothing := by
  refine ⟨State.reset_pending, State.reset_results, fun w => ?ports⟩
  case ports => rw [State.ports_eq, State.drive_wordI]

end Sys2Proof

/-! Proofs of the family `48_bit_highlighter.md`: the spans cut the word from bit 31 down to bit 0 (R109), `class_o`
holds the class of each bit's span (R115), and the digits (R105) reappear in the annotated text (R111). -/

namespace Sys2Proof

open Sys2Proof.Machine

/-! ## The spans, the valid bits and `recognized_o` are functions of the shape (R65, R67, R108) -/

/-- The spans of a shape; an unrecognized word has no shape. -/
def spansOfShape : Option Shape → List Span
  | some .threeRegister => spans3R
  | some .twoRegister => spans2R
  | some .oneRegister => spans1R
  | some .halt => spansH
  | some .immediate => spansIMM
  | none => spansRAW

theorem spans_eq_spansOfShape (w : Word32) : spans w = spansOfShape (shapeOf (decode w)) := by
  rw [spans]
  obtain ⟨op, hop, -⟩ | ⟨hle, -⟩ := classify_cases w
  · rw [decode_of_xOp_eq_code hop, shapeOf]
    cases layoutFor op <;> rfl
  · rw [decode_of_fourteen_le_xOp hle]
    rfl

/-- An unrecognized word is exactly one without a shape. -/
theorem recognizedBit_eq_ofBool_isSome (w : Word32) :
    recognizedBit w = BitVec.ofBool (shapeOf (decode w)).isSome := by
  obtain ⟨op, hop, -⟩ | ⟨hle, -⟩ := classify_cases w
  · rw [decode_of_xOp_eq_code hop, recognizedBit, hop]
    cases op <;> rfl
  · rw [decode_of_fourteen_le_xOp hle, (recognizedBit_eq_zero_iff w).2 hle]
    rfl

/-! ## The spans cut the word from the top to bit 0 (R109) -/

/-- The spans are non-empty ranges, each starting just below the one before it, that use up the bits below `n`. -/
def CutsBelow : Nat → List Span → Prop
  | n, [] => n = 0
  | n, sp :: rest => sp.hi + 1 = n ∧ sp.lo ≤ sp.hi ∧ CutsBelow sp.lo rest

theorem cutsBelow_spansOfShape (shape : Option Shape) : CutsBelow 32 (spansOfShape shape) := by
  match shape with
  | some .threeRegister | some .twoRegister | some .oneRegister | some .halt | some .immediate | none =>
    simp [spansOfShape, spans3R, spans2R, spans1R, spansH, spansIMM, spansRAW, CutsBelow]

theorem cutsBelow_spans (w : Word32) : CutsBelow 32 (spans w) := by
  rw [spans_eq_spansOfShape]
  exact cutsBelow_spansOfShape _

theorem CutsBelow.range_of_mem {n : Nat} {sps : List Span} (h : CutsBelow n sps) {sp : Span} (hsp : sp ∈ sps) :
    sp.lo ≤ sp.hi ∧ sp.hi < n := by
  induction sps generalizing n with
  | nil => cases hsp
  | cons x rest ih =>
    obtain ⟨hhi, hle, hrest⟩ := h
    obtain rfl | hsp := List.mem_cons.1 hsp
    · omega
    · have := ih hrest hsp
      omega

/-- Neighbours meet: a span ends one above the next. -/
theorem CutsBelow.lo_eq_hi_succ {n : Nat} {sps : List Span} (h : CutsBelow n sps) {k : Nat} {x y : Span}
    (hx : sps[k]? = some x) (hy : sps[k + 1]? = some y) : x.lo = y.hi + 1 := by
  induction sps generalizing n k with
  | nil => cases hx
  | cons z rest ih =>
    obtain ⟨-, -, hrest⟩ := h
    cases k with
    | succ k => exact ih hrest hx hy
    | zero =>
      cases hx
      cases rest with
      | nil => cases hy
      | cons y' rest =>
        cases hy
        obtain ⟨hhi, -, -⟩ := hrest
        exact hhi.symm

/-- Bit `i` lies in exactly one span when it is below the cut, and in none otherwise. -/
theorem CutsBelow.length_filter_covers {n : Nat} {sps : List Span} (h : CutsBelow n sps) (i : Nat) :
    (sps.filter fun sp => sp.covers i).length = if i < n then 1 else 0 := by
  induction sps generalizing n with
  | nil => cases h; rfl
  | cons x rest ih =>
    obtain ⟨hhi, hle, hrest⟩ := h
    have hrest' := ih hrest
    by_cases hcov : x.covers i
    · have hbounds : x.lo ≤ i ∧ i ≤ x.hi := by simpa [Span.covers] using hcov
      rw [if_neg (by omega)] at hrest'
      rw [List.filter_cons, if_pos hcov, List.length_cons, hrest', if_pos (by omega)]
    · have hbounds : ¬ (x.lo ≤ i ∧ i ≤ x.hi) := by simpa [Span.covers] using hcov
      rw [List.filter_cons, if_neg hcov, hrest']
      split <;> split <;> omega

/-- Settles O51: the order and the cover hold of any cut of 32 bits, and the shape says which spans are the ends. -/
theorem spansPartitionTheWord : Obligations.SpansPartitionTheWord := by
  intro w
  have hcut := cutsBelow_spans w
  rw [portsOf_recognizedO, recognizedBit_eq_ofBool_isSome]
  refine ⟨fun sp hsp => ?range, ⟨?first, ?last⟩, fun k x y => hcut.lo_eq_hi_succ, fun i hi => ?once, ?known, ?raw⟩
  case range =>
    obtain ⟨hle, hlt⟩ := hcut.range_of_mem hsp
    exact ⟨hle, Nat.le_of_lt_succ hlt⟩
  case once => exact (hcut.length_filter_covers i).trans (if_pos hi)
  all_goals
    rw [spans_eq_spansOfShape]
    match shapeOf (decode w) with
    | some .threeRegister | some .twoRegister | some .oneRegister | some .halt | some .immediate | none => decide

/-! ## Register and value spans, and the ports (R116) -/

/-- The field whose bits a register or value span shows. -/
def fieldOfClass : SpanClass → Option Field
  | .regA => some fieldRA
  | .regB => some fieldRB
  | .regC => some fieldRC
  | .regL => some fieldRL
  | .value => some fieldVL
  | .raw | .opcode | .unused => none

theorem fieldRange_of_mem_spansOfShape (shape : Option Shape) :
    ∀ sp ∈ spansOfShape shape, ∀ f ∈ fieldOfClass sp.cls, Expected.fieldRange f sp := by
  match shape with
  | some .threeRegister | some .twoRegister | some .oneRegister | some .halt | some .immediate | none =>
    simp [spansOfShape, spans3R, spans2R, spans1R, spansH, spansIMM, spansRAW, fieldOfClass, Expected.fieldRange,
      fieldRA, fieldRB, fieldRC, fieldRL, fieldVL]

/-- Settles O53: the spans, `valid_o` and `recognized_o` are read off the same shape. -/
theorem highlighterAgreesWithThePorts : Obligations.HighlighterAgreesWithThePorts := by
  intro w
  rw [portsOf_recognizedO, recognizedBit_eq_ofBool_isSome, portsOf_validO, spans_eq_spansOfShape]
  refine ⟨?a, ?b, ?c, ?l, ?value, ?opcode, ?raw, fun sp hsp => ?ranges⟩
  case ranges =>
    have hfield := fieldRange_of_mem_spansOfShape _ sp hsp
    and_intros <;> exact fun hcls => hfield _ (by rw [hcls]; rfl)
  all_goals
    match shapeOf (decode w) with
    | some .threeRegister | some .twoRegister | some .oneRegister | some .halt | some .immediate | none => decide

/-! ## `class_o` (R115) -/

/-- The entries or-ed into `class_o` do not overlap: bit `j` comes from entry `j / 3` alone. -/
theorem getLsbD_classVector_upTo (sps : List Span) (n j : Nat) :
    ((List.range n).foldl (fun v i => v ||| ((classEntry sps i).setWidth 96 <<< (3 * i))) 0).getLsbD j =
      (decide (j < 96) && (decide (j < 3 * n) && (classEntry sps (j / 3)).getLsbD (j % 3))) := by
  induction n with
  | zero => simp
  | succ n ih =>
    rw [List.range_succ, List.foldl_append, List.foldl_cons, List.foldl_nil, BitVec.getLsbD_or, ih,
      BitVec.getLsbD_shiftLeft, BitVec.getLsbD_setWidth]
    by_cases hlow : j < 3 * n
    · simp [hlow, show j < 3 * (n + 1) by omega]
    · by_cases hentry : j < 3 * (n + 1)
      · simp [hlow, hentry, show j / 3 = n by omega, show j % 3 = j - 3 * n by omega, show j - 3 * n < 96 by omega]
      · simp [hlow, hentry, BitVec.getLsbD_of_ge (classEntry sps n) (j - 3 * n) (by omega)]

theorem classVector_slice (sps : List Span) {i : Nat} (hi : i < 32) :
    (classVector sps).extractLsb' (3 * i) 3 = classEntry sps i := by
  apply BitVec.eq_of_getLsbD_eq
  intro j hj
  rw [BitVec.getLsbD_extractLsb', classVector, getLsbD_classVector_upTo]
  simp [hj, show 3 * i + j < 96 by omega, show (3 * i + j) / 3 = i by omega, Nat.mod_eq_of_lt hj]

/-- In a cut of the word the search finds the span of every bit. -/
theorem CutsBelow.exists_classEntry {n : Nat} {sps : List Span} (h : CutsBelow n sps) {i : Nat} (hi : i < n) :
    ∃ sp ∈ sps, sp.lo ≤ i ∧ i ≤ sp.hi ∧ classEntry sps i = spanClassNumber sp.cls := by
  have hone := (h.length_filter_covers i).trans (if_pos hi)
  rw [classEntry]
  cases hfind : sps.find? fun sp => sp.covers i with
  | none =>
    have hnone : sps.filter (fun sp => sp.covers i) = [] := List.filter_eq_nil_iff.2 (List.find?_eq_none.1 hfind)
    rw [hnone] at hone
    cases hone
  | some sp =>
    have hcov : sp.lo ≤ i ∧ i ≤ sp.hi := by simpa [Span.covers] using List.find?_some hfind
    exact ⟨sp, List.mem_of_find?_eq_some hfind, hcov.1, hcov.2, rfl⟩

theorem classEntry_spansOfShape (shape : Option Shape) :
    ∀ i < 32, classEntry (spansOfShape shape) i = Expected.classRow shape i := by
  match shape with
  | some .threeRegister | some .twoRegister | some .oneRegister | some .halt | some .immediate | none => decide

/-- The shape read back from `class_o`: entry 28 says whether the word is recognized, and the entries 27, 8, 5 and 2,
each the top bit of an operand field, say which operands it has. -/
def shapeOfClassPort (classO : BitVec 96) : Option Shape :=
  if classO.extractLsb' (3 * 28) 3 = 0 then none
  else if classO.extractLsb' (3 * 27) 3 = 6 then some .immediate
  else if classO.extractLsb' (3 * 8) 3 = 3 then some .threeRegister
  else if classO.extractLsb' (3 * 5) 3 = 4 then some .twoRegister
  else if classO.extractLsb' (3 * 2) 3 = 5 then some .oneRegister
  else some .halt

theorem shapeOfClassPort_classVector (shape : Option Shape) :
    shapeOfClassPort (classVector (spansOfShape shape)) = shape := by
  have hrow {i : Nat} (hi : i < 32) :
      (classVector (spansOfShape shape)).extractLsb' (3 * i) 3 = Expected.classRow shape i :=
    (classVector_slice _ hi).trans (classEntry_spansOfShape shape i hi)
  rw [shapeOfClassPort, hrow (i := 28) (by decide), hrow (i := 27) (by decide), hrow (i := 8) (by decide),
    hrow (i := 5) (by decide), hrow (i := 2) (by decide)]
  match shape with
  | some .threeRegister | some .twoRegister | some .oneRegister | some .halt | some .immediate | none => rfl

@[simp] theorem answer_true_highlighter (w : Word32) :
    (answer true w).highlighter = some (highlighterOutputs w (spans w)) := rfl

/-- Settles O52: entry `i` is found in the cut, and `class_o` gives the shape back, which has the spans. -/
theorem classPortNamesTheSpanOfEachBit : Obligations.ClassPortNamesTheSpanOfEachBit := by
  refine ⟨fun w h hout i hi => ?entry, fun w w' h h' hout hout' hclass => ?spans⟩
  case entry =>
    cases hout
    simp only [highlighterOutputs, classVector_slice _ hi]
    refine ⟨(cutsBelow_spans w).exists_classEntry hi, ?_⟩
    rw [spans_eq_spansOfShape, classEntry_spansOfShape _ i hi]
  case spans =>
    cases hout
    cases hout'
    simp only [highlighterOutputs, spans_eq_spansOfShape] at hclass
    have hshape := congrArg shapeOfClassPort hclass
    rw [shapeOfClassPort_classVector, shapeOfClassPort_classVector] at hshape
    rw [spans_eq_spansOfShape, spans_eq_spansOfShape, hshape]

/-! ## The digits (R105) -/

/-- The character of one bit. -/
def bitDigit (w : Word32) (k : Nat) : Byte := if w.getLsbD (31 - k) then 0x31#8 else 0x30#8

theorem binaryDigits_eq_map (w : Word32) : binaryDigits w = (List.range 32).map (bitDigit w) := rfl

@[simp] theorem length_binaryDigits (w : Word32) : (binaryDigits w).length = 32 := by
  simp [binaryDigits]

theorem toNat_bitDigit_sub (w : Word32) (k : Nat) :
    (bitDigit w k).toNat - 0x30 = w.toNat >>> (31 - k) % 2 := by
  rw [bitDigit, BitVec.getLsbD, Nat.testBit_eq_decide_div_mod_eq, Nat.shiftRight_eq_div_pow]
  split <;> simp_all

/-- The first `n` digits are the top `n` bits as a number. -/
theorem foldl_bitDigit (w : Word32) {n : Nat} (hn : n ≤ 32) :
    ((List.range n).map (bitDigit w)).foldl (fun v d => 2 * v + (d.toNat - 0x30)) 0 = w.toNat >>> (32 - n) := by
  induction n with
  | zero => simpa using (Nat.shiftRight_eq_zero w.toNat 32 w.isLt).symm
  | succ n ih =>
    have hshift : w.toNat >>> (32 - n) = w.toNat >>> (31 - n) / 2 := by
      rw [← Nat.shiftRight_succ, show 31 - n + 1 = 32 - n by omega]
    rw [List.range_succ, List.map_append, List.foldl_append, ih (by omega), List.map_singleton, List.foldl_cons,
      List.foldl_nil, toNat_bitDigit_sub, hshift, Nat.div_add_mod, show 32 - (n + 1) = 31 - n by omega]

/-- Settles O54: character `k` is the digit of bit `31 - k`, and reading on by one digit reads on by one bit. -/
theorem binaryDigitsAreTheWordsBits : Obligations.BinaryDigitsAreTheWordsBits := by
  intro w
  refine ⟨length_binaryDigits w, fun k hk => ?digit, ?number, ?port⟩
  case digit => simp [binaryDigits, hk]
  case number => exact foldl_bitDigit w (Nat.le_refl 32)
  case port => simp [highlighterOutputs]

/-! ## The annotated text (R111) -/

/-- The positions `31 - hi` to `31 - lo` are those of a span's digits. -/
theorem positions_spansOfShape (shape : Option Shape) :
    ∀ sp ∈ spansOfShape shape,
      ((List.range 32).filter fun k => decide (31 - sp.hi ≤ k) && decide (k ≤ 31 - sp.lo)) =
        ((List.range 32).drop (31 - sp.hi)).take (sp.hi - sp.lo + 1) := by
  match shape with
  | some .threeRegister | some .twoRegister | some .oneRegister | some .halt | some .immediate | none => decide

theorem spanDigits_eq_map_filter {w : Word32} {sp : Span} (hsp : sp ∈ spans w) :
    spanDigits w sp =
      ((List.range 32).filter fun k => decide (31 - sp.hi ≤ k) && decide (k ≤ 31 - sp.lo)).map (bitDigit w) := by
  rw [spans_eq_spansOfShape] at hsp
  rw [positions_spansOfShape _ sp hsp, spanDigits, binaryDigits_eq_map, List.map_take, List.map_drop]

/-- A cut of the word cuts its digits: end to end, the pieces are the digits from the first bit of the cut on. -/
theorem CutsBelow.flatMap_spanDigits (w : Word32) {n : Nat} {sps : List Span} (h : CutsBelow n sps) (hn : n ≤ 32) :
    sps.flatMap (spanDigits w) = (binaryDigits w).drop (32 - n) := by
  induction sps generalizing n with
  | nil => cases h; simp
  | cons sp rest ih =>
    obtain ⟨rfl, hle, hrest⟩ := h
    have hrest' : (binaryDigits w).drop (32 - sp.lo) =
        ((binaryDigits w).drop (31 - sp.hi)).drop (sp.hi - sp.lo + 1) := by
      rw [List.drop_drop, show 31 - sp.hi + (sp.hi - sp.lo + 1) = 32 - sp.lo by omega]
    rw [List.flatMap_cons, ih hrest (by omega), spanDigits, hrest', List.take_append_drop,
      show 32 - (sp.hi + 1) = 31 - sp.hi by omega]

theorem flatMap_spanDigits (w : Word32) : (spans w).flatMap (spanDigits w) = binaryDigits w := by
  rw [(cutsBelow_spans w).flatMap_spanDigits w (Nat.le_refl 32), List.drop_zero]

theorem annotatedText_eq_flatMap (palette : Palette) (w : Word32) :
    annotatedText palette w =
      (spans w).flatMap fun sp => (palette sp.cls).1 ++ spanDigits w sp ++ (palette sp.cls).2 := by
  simp [annotatedText, annotatedPieces, List.flatMap_assoc, pieceBytes]

theorem visibleText_eq_flatMap (palette : Palette) (w : Word32) :
    visibleText palette w = (spans w).flatMap (spanDigits w) := by
  simp [visibleText, annotatedPieces, List.flatMap_assoc, pieceVisible]

/-- Settles O55: markup aside, the annotated text is the digits of the spans, end to end. -/
theorem annotatedTextShowsExactlyTheDigits : Obligations.AnnotatedTextShowsExactlyTheDigits := by
  intro palette w
  refine ⟨?pieces, ?visible, ?identity⟩
  case pieces =>
    rw [annotatedText_eq_flatMap, List.flatMap_def]
    refine congrArg List.flatten (List.map_congr_left fun sp hsp => ?_)
    rw [spanDigits_eq_map_filter hsp]
    rfl
  case visible => rw [visibleText_eq_flatMap, flatMap_spanDigits]
  case identity =>
    rw [annotatedText_eq_flatMap]
    simpa [identityPalette] using flatMap_spanDigits w

/-! ## Without the option (R118) -/

/-- Settles O56: the option decides whether there is a highlighter and nothing else of the answer. -/
theorem withoutTheOptionOnlyTheHighlighterIsGone : Obligations.WithoutTheOptionOnlyTheHighlighterIsGone := by
  intro w
  refine ⟨Laws.highlightIf_false w (spans w), ?present, rfl⟩
  case present => rw [answer_true_highlighter, Option.isSome_some]

end Sys2Proof

/-! Proofs of the family `47_mnemonic_text.md`: the numerals (R97, R98), the texts as words joined by single spaces
(R96), their lengths (R101), and the reading of a text back as a decode result (R95, R104). -/

namespace Sys2Proof

open Sys2Proof.Machine

/-! ## Decimal numerals (R97) -/

theorem decDigit_toNat {n : Nat} (h : n < 10) : (decDigit n).toNat = 0x30 + n := by
  rw [decDigit, BitVec.toNat_ofNat, Nat.mod_eq_of_lt (by omega)]

/-- Fuel beyond the number of digits changes nothing. -/
theorem decDigits_fuel_irrelevant {f g n : Nat} (hf : n < 10 ^ (f + 1)) (hg : n < 10 ^ (g + 1)) :
    decDigits f n = decDigits g n := by
  induction f generalizing g n with
  | zero =>
    have hn : n < 10 := by simpa using hf
    rw [Laws.decDigits_eq 0 n hf, Laws.decDigits_eq g n hg, if_pos hn, if_pos hn]
  | succ f ih =>
    rw [Laws.decDigits_eq (f + 1) n hf, Laws.decDigits_eq g n hg]
    by_cases hn : n < 10
    · rw [if_pos hn, if_pos hn]
    · cases g with
      | zero => exact absurd hg hn
      | succ g =>
        rw [Nat.pow_succ] at hf hg
        have hquot : decDigits f (n / 10) = decDigits g (n / 10) := ih (by omega) (by omega)
        rw [if_neg hn, if_neg hn, Nat.add_sub_cancel, Nat.add_sub_cancel, hquot]

/-- A number has no more decimal digits than binary ones, so the fuel of `dec` suffices. -/
theorem lt_ten_pow_log2_succ (n : Nat) : n < 10 ^ (n.log2 + 1) :=
  calc n < 2 ^ (n.log2 + 1) := Nat.lt_log2_self
    _ ≤ 10 ^ (n.log2 + 1) := Nat.pow_le_pow_left (by decide) _

theorem dec_of_lt_ten {n : Nat} (h : n < 10) : dec n = [decDigit n] := by
  rw [dec, Laws.decDigits_eq _ _ (lt_ten_pow_log2_succ n), if_pos h]

theorem dec_of_ten_le {n : Nat} (h : 10 ≤ n) : dec n = dec (n / 10) ++ [decDigit (n % 10)] := by
  have hfuel : n < 10 ^ (n.log2 - 1 + 1 + 1) :=
    Nat.lt_of_lt_of_le (lt_ten_pow_log2_succ n) (Nat.pow_le_pow_right (by decide) (by omega))
  rw [Nat.pow_succ] at hfuel
  rw [dec, Laws.decDigits_eq _ _ (lt_ten_pow_log2_succ n), if_neg (by omega), dec,
    decDigits_fuel_irrelevant (by omega) (lt_ten_pow_log2_succ (n / 10))]

/-- Induction along the decimal digits of a number. -/
theorem decimal_induction {motive : Nat → Prop} (digit : ∀ n < 10, motive n)
    (next : ∀ n, 10 ≤ n → motive (n / 10) → motive n) (n : Nat) : motive n := by
  induction n using Nat.strong_induction_on with
  | h n ih =>
    by_cases hn : n < 10
    · exact digit n hn
    · exact next n (by omega) (ih (n / 10) (by omega))

/-- A decimal numeral read back, most significant digit first. -/
def readDec (t : List Byte) : Nat := t.foldl (fun v d => 10 * v + (d.toNat - 0x30)) 0

theorem readDec_concat (t : List Byte) (d : Byte) : readDec (t ++ [d]) = 10 * readDec t + (d.toNat - 0x30) := by
  rw [readDec, List.foldl_append]
  rfl

@[simp] theorem readDec_dec (n : Nat) : readDec (dec n) = n := by
  induction n using decimal_induction with
  | digit n hn => simp [dec_of_lt_ten hn, readDec, decDigit_toNat hn]
  | next n hn ih =>
    rw [dec_of_ten_le hn, readDec_concat, ih, decDigit_toNat (by omega)]
    omega

theorem dec_ne_nil (n : Nat) : dec n ≠ [] := by
  induction n using decimal_induction with
  | digit n hn => simp [dec_of_lt_ten hn]
  | next n hn ih => simp [dec_of_ten_le hn]

theorem exists_digit_of_mem_dec {n : Nat} {d : Byte} (hd : d ∈ dec n) : ∃ k < 10, d = decDigit k := by
  induction n using decimal_induction with
  | digit n hn =>
    rw [dec_of_lt_ten hn, List.mem_singleton] at hd
    exact ⟨n, hn, hd⟩
  | next n hn ih =>
    rw [dec_of_ten_le hn, List.mem_append, List.mem_singleton] at hd
    obtain hd | hd := hd
    · exact ih hd
    · exact ⟨n % 10, by omega, hd⟩

theorem isDigit_of_mem_dec {n : Nat} {d : Byte} (hd : d ∈ dec n) : 0x30 ≤ d.toNat ∧ d.toNat ≤ 0x39 := by
  obtain ⟨k, hk, rfl⟩ := exists_digit_of_mem_dec hd
  rw [decDigit_toNat hk]
  omega

/-- A numeral that starts with 0 is that digit alone: a longer one goes on from a positive quotient. -/
theorem dec_eq_zero_of_head? {n : Nat} (h : (dec n).head? = some 0x30#8) : dec n = [0x30#8] := by
  induction n using decimal_induction with
  | digit n hn =>
    rw [dec_of_lt_ten hn] at h ⊢
    exact congrArg (· :: []) (Option.some.inj h)
  | next n hn ih =>
    rw [dec_of_ten_le hn, List.head?_append_of_ne_nil _ (dec_ne_nil _)] at h
    have hquot : n / 10 = 0 := by rw [← readDec_dec (n / 10), ih h]; rfl
    omega

theorem length_dec_le {n k : Nat} (hk : 0 < k) (h : n < 10 ^ k) : (dec n).length ≤ k := by
  induction n using decimal_induction generalizing k with
  | digit n hn =>
    rw [dec_of_lt_ten hn]
    exact hk
  | next n hn ih =>
    obtain ⟨k, rfl⟩ : ∃ j, k = j + 2 := ⟨k - 2, by
      have : k ≠ 1 := by rintro rfl; omega
      omega⟩
    rw [Nat.pow_succ] at h
    have := ih (k := k + 1) (by omega) (by omega)
    simpa [dec_of_ten_le hn] using this

/-- Settles O48, along the decimal digits of the number. -/
theorem decimalNumeralsAreShortestAndReadBack : Obligations.DecimalNumeralsAreShortestAndReadBack := by
  refine ⟨fun n => ⟨readDec_dec n, dec_ne_nil n, fun d => isDigit_of_mem_dec, dec_eq_zero_of_head?, fun hn => ?one,
    fun hn => ?eight⟩, ?zero⟩
  case one => rw [dec_of_lt_ten (by omega), List.length_singleton]
  case eight => exact length_dec_le (by decide) (Nat.lt_trans hn (by decide))
  case zero => exact dec_of_lt_ten (by decide)

/-! ## Hexadecimal numerals (R98) -/

@[simp] theorem length_hex8 (w : Word32) : (hex8 w).length = 8 := by
  simp [hex8]

theorem hex8_eq_map_hexDigit (w : Word32) :
    hex8 w = ((List.range 8).map fun i => w.extractLsb' (28 - 4 * i) 4).map hexDigit := by
  rw [List.map_map]
  rfl

theorem getElem?_hex8 (w : Word32) {i : Nat} (hi : i < 8) :
    (hex8 w)[i]? = some (hexDigit (w.extractLsb' (28 - 4 * i) 4)) := by
  simp [hex8, hi]

theorem hexDigit_eq_getElem? : ∀ n : U4, (ascii "0123456789abcdef")[n.toNat]? = some (hexDigit n) := by decide

theorem hexDigit_injective : ∀ m n : U4, hexDigit m = hexDigit n → m = n := by decide

/-- Every bit of a word stands in one of its eight nibbles, and the numeral shows each of them. -/
theorem hex8_injective {w w' : Word32} (h : hex8 w = hex8 w') : w = w' := by
  apply BitVec.eq_of_getLsbD_eq
  intro j hj
  have hnibble : w.extractLsb' (28 - 4 * (7 - j / 4)) 4 = w'.extractLsb' (28 - 4 * (7 - j / 4)) 4 := by
    have hdigit := congrArg (·[7 - j / 4]?) h
    simp only [getElem?_hex8 _ (show 7 - j / 4 < 8 by omega)] at hdigit
    exact hexDigit_injective _ _ (Option.some.inj hdigit)
  have hbit := congrArg (·.getLsbD (j % 4)) hnibble
  simpa [Nat.mod_lt, show 28 - 4 * (7 - j / 4) + j % 4 = j by omega] using hbit

/-- Settles O49, digit by digit. -/
theorem hexNumeralsShowEachNibble : Obligations.HexNumeralsShowEachNibble := by
  refine ⟨fun w => ⟨length_hex8 w, fun i hi => ?digit⟩, fun w w' => hex8_injective⟩
  case digit => rw [getElem?_hex8 w hi, hexDigit_eq_getElem?]

/-! ## Unused bits (R104) -/

/-- Words that agree on a mask agree on every field the mask covers. -/
theorem slice_eq_of_and_mask_eq {w w' mask : Word32} {lsb n : Nat} (h : w &&& mask = w' &&& mask)
    (hmask : mask.extractLsb' lsb n = BitVec.allOnes n) : w.extractLsb' lsb n = w'.extractLsb' lsb n := by
  have hslice := congrArg (BitVec.extractLsb' lsb n) h
  rwa [BitVec.extractLsb'_and, BitVec.extractLsb'_and, hmask, BitVec.and_allOnes, BitVec.and_allOnes] at hslice

theorem operands_eq_of_usedMask {w w' : Word32} {shape : Shape}
    (h : w &&& Expected.usedMask shape = w' &&& Expected.usedMask shape) : operands shape w = operands shape w' := by
  cases shape with
  | threeRegister =>
    rw [operands, operands, xRa_eq_slice, xRb_eq_slice, xRc_eq_slice, xRa_eq_slice, xRb_eq_slice, xRc_eq_slice,
      slice_eq_of_and_mask_eq (lsb := 6) h (by decide), slice_eq_of_and_mask_eq (lsb := 3) h (by decide),
      slice_eq_of_and_mask_eq (lsb := 0) h (by decide)]
  | twoRegister =>
    rw [operands, operands, xRb_eq_slice, xRc_eq_slice, xRb_eq_slice, xRc_eq_slice,
      slice_eq_of_and_mask_eq (lsb := 3) h (by decide), slice_eq_of_and_mask_eq (lsb := 0) h (by decide)]
  | oneRegister =>
    rw [operands, operands, xRc_eq_slice, xRc_eq_slice, slice_eq_of_and_mask_eq (lsb := 0) h (by decide)]
  | halt => rw [operands, operands]
  | immediate =>
    rw [operands, operands, xRl_eq_slice, xVl_eq_slice, xRl_eq_slice, xVl_eq_slice,
      slice_eq_of_and_mask_eq (lsb := 25) h (by decide), slice_eq_of_and_mask_eq (lsb := 0) h (by decide)]

theorem render_of_xOp_eq_code {w : Word32} {op : Opcode} (h : xOp w = op.code) :
    render w = textOf (.instr op (operands (layoutFor op) w)) := by
  rw [render, decode_of_xOp_eq_code h]

theorem render_of_fourteen_le_xOp {w : Word32} (h : 14#4 ≤ xOp w) : render w = textData w := by
  rw [render, decode_of_fourteen_le_xOp h, textOf]

theorem textData_injective {w w' : Word32} (h : textData w = textData w') : w = w' :=
  hex8_injective (List.append_cancel_left h)

/-- Settles O19: the decode result is the opcode with its fields, and ports, text and spans are functions of it. -/
theorem unusedBitsReachNeitherPortsNorText : Obligations.UnusedBitsReachNeitherPortsNorText := by
  refine ⟨fun op w w' hclass hclass' hused => ?recognized, fun w w' hclass hclass' htext => ?unrecognized⟩
  case recognized =>
    have hdecode : decode w = decode w' := by
      rw [decode_of_xOp_eq_code ((classify_eq_known_iff w op).1 hclass),
        decode_of_xOp_eq_code ((classify_eq_known_iff w' op).1 hclass'), operands_eq_of_usedMask hused]
    obtain ⟨hports, -, -⟩ := portsAndDecodeResultDetermineEachOther
    exact ⟨hdecode, (hports w w').2 hdecode, congrArg textOf hdecode, congrArg spansOf hdecode⟩
  case unrecognized =>
    have hle {v : Word32} (hv : classify v = .unrecognized v) : 14#4 ≤ xOp v := by
      obtain h14 | h15 := (classify_eq_unrecognized_iff v).1 hv
      · rw [h14]; decide
      · rw [h15]; decide
    rw [render_of_fourteen_le_xOp (hle hclass), render_of_fourteen_le_xOp (hle hclass')] at htext
    exact textData_injective htext

/-! ## The characters of a text (R96) -/

/-- The characters R96 lists. -/
def lineBytes : List Byte := ascii " !()*+./0123456789:;=[]abcdefghilmnoprstuwx"

/-- A text that a line may go on with: listed characters, no two spaces adjacent, no space at the end. It may begin with
a space. -/
abbrev IsTail (t : List Byte) : Prop :=
  t ≠ [] ∧ t.all lineBytes.contains = true ∧ (t.IsChain fun x y => ¬ (x = 0x20#8 ∧ y = 0x20#8)) ∧
    t.getLast? ≠ some 0x20#8

/-- A line also begins without a space. -/
abbrev IsLine (t : List Byte) : Prop := IsTail t ∧ t.head? ≠ some 0x20#8

/-- A tail ends without a space, so a space at the start of what follows stays single. -/
theorem IsTail.append {l t : List Byte} (hl : IsTail l) (ht : IsTail t) : IsTail (l ++ t) := by
  obtain ⟨hlne, hlbytes, hlchain, hllast⟩ := hl
  obtain ⟨htne, htbytes, htchain, htlast⟩ := ht
  refine ⟨List.append_ne_nil_of_left_ne_nil hlne t, ?bytes, ?chain, ?last⟩
  case bytes => rw [List.all_append, hlbytes, htbytes, Bool.and_self]
  case chain => exact List.isChain_append.2 ⟨hlchain, htchain, fun x hx y _ hspaces => hllast (hspaces.1 ▸ hx)⟩
  case last => rwa [List.getLast?_append_of_ne_nil l htne]

theorem IsLine.append {l t : List Byte} (hl : IsLine l) (ht : IsTail t) : IsLine (l ++ t) := by
  obtain ⟨hltail, hlhead⟩ := hl
  have ⟨hlne, _⟩ := hltail
  refine ⟨hltail.append ht, ?_⟩
  rwa [List.head?_append_of_ne_nil l hlne]

/-- It is enough to look at the text before a numeral together with the numeral's first digit. -/
theorem isTail_append_dec {g : List Byte} (h : ∀ k < 10, IsTail (g ++ [decDigit k])) (n : Nat) :
    IsTail (g ++ dec n) := by
  have hdigit : ∀ k < 10, IsTail [decDigit k] := by decide
  induction n using decimal_induction with
  | digit n hn =>
    rw [dec_of_lt_ten hn]
    exact h n hn
  | next n hn ih =>
    rw [dec_of_ten_le hn, ← List.append_assoc]
    exact ih.append (hdigit _ (by omega))

theorem IsLine.append_dec {l : List Byte} (hl : IsLine l) (n : Nat) : IsLine (l ++ dec n) :=
  hl.append (isTail_append_dec (g := []) (by decide) n)

/-- A literal and the register index after it. -/
theorem IsLine.append_field {l t : List Byte} (hl : IsLine l) (ht : IsTail t) (n : Nat) : IsLine (l ++ t ++ dec n) :=
  (hl.append ht).append_dec n

theorem isTail_map_hexDigit {ns : List U4} (hne : ns ≠ []) : IsTail (ns.map hexDigit) := by
  have hdigit : ∀ n : U4, IsTail [hexDigit n] := by decide
  induction ns with
  | nil => exact absurd rfl hne
  | cons n ns ih =>
    cases ns with
    | nil => exact hdigit n
    | cons m ns => exact (hdigit n).append (ih (List.cons_ne_nil m ns))

theorem isLine_textBinary {operator : String} (h : IsTail (ascii (" " ++ operator ++ " r"))) (a b c : U3) :
    IsLine (textBinary operator a b c) := by
  rw [textBinary_eq]
  have hr : IsLine (ascii "r") := by decide
  exact (((hr.append_dec _).append_field (by decide) _).append_field h _).append (by decide)

/-- Every template begins without a space, and its literals end without one, apart from ` := ` before the numeral of
R91. -/
theorem isLine_textOf (d : Decoded) : IsLine (textOf d) := by
  have hr : IsLine (ascii "r") := by decide
  cases d with
  | data raw =>
    have hstart : IsLine (ascii ".data 0x") := by decide
    rw [textOf, textData, hex8_eq_map_hexDigit]
    exact hstart.append (isTail_map_hexDigit (by simp))
  | instr op lay =>
    cases op with
    | cMov =>
      have hstart : IsLine (ascii "if (r") := by decide
      rw [textOf, textCMov_eq]
      exact (((hstart.append_dec _).append_field (by decide) _).append_field (by decide) _).append (by decide)
    | load =>
      rw [textOf, textLoad_eq]
      exact (((hr.append_dec _).append_field (by decide) _).append_field (by decide) _).append (by decide)
    | store =>
      have hstart : IsLine (ascii "m[r") := by decide
      rw [textOf, textStore_eq]
      exact (((hstart.append_dec _).append_field (by decide) _).append_field (by decide) _).append (by decide)
    | add | mul | div | nand => exact isLine_textBinary (by decide) _ _ _
    | halt =>
      rw [textOf]
      decide
    | mapSegment =>
      rw [textOf, textMapSegment_eq]
      exact ((hr.append_dec _).append_field (by decide) _).append (by decide)
    | unmapSegment =>
      have hstart : IsLine (ascii "unmap r") := by decide
      rw [textOf, textUnmapSegment_eq]
      exact (hstart.append_dec _).append (by decide)
    | output =>
      have hstart : IsLine (ascii "output r") := by decide
      rw [textOf, textOutput_eq]
      exact (hstart.append_dec _).append (by decide)
    | input =>
      rw [textOf, textInput_eq]
      exact (hr.append_dec _).append (by decide)
    | loadProgram =>
      have hstart : IsLine (ascii "goto r") := by decide
      rw [textOf, textLoadProgram_eq]
      exact ((hstart.append_dec _).append_field (by decide) _).append (by decide)
    | loadValue =>
      rw [textOf, textLoadValue_eq, List.append_assoc _ (ascii " := ")]
      exact ((hr.append_dec _).append (isTail_append_dec (by decide) _)).append (by decide)

/-- Settles O46: every text is a line. -/
theorem textIsOnePrintableLine : Obligations.TextIsOnePrintableLine := by
  intro w
  obtain ⟨⟨-, hall, hchain, hlast⟩, hhead⟩ := isLine_textOf (decode w)
  have hbytes : ∀ b ∈ render w, b ∈ lineBytes := fun b hb => List.contains_iff_mem.1 (List.all_eq_true.1 hall b hb)
  refine ⟨hbytes, fun b hb => ?printable, fun hdouble => ?single, hhead, hlast⟩
  case printable =>
    have hrange : lineBytes.all (fun b => 0x20 ≤ b.toNat && b.toNat ≤ 0x7E) = true := by decide
    simpa using List.all_eq_true.1 hrange b (hbytes b hb)
  case single =>
    obtain ⟨before, after, hrender⟩ := hdouble
    rw [← render, ← hrender] at hchain
    obtain ⟨hspaces, -⟩ := List.isChain_cons_cons.1 hchain.left_of_append.right_of_append
    exact hspaces ⟨rfl, rfl⟩

/-! ## The lengths of the texts (R101) -/

theorem regName_eq (i : U3) : regName i = [0x72#8, decDigit i.toNat] := by
  rw [regName, dec_of_lt_ten (by omega)]
  rfl

@[simp] theorem length_regName (i : U3) : (regName i).length = 2 := by
  rw [regName_eq]
  rfl

theorem length_textBinary (operator : String) (a b c : U3) :
    (textBinary operator a b c).length = (ascii operator).length + 13 := by
  simp +arith [textBinary, ascii]

theorem length_textLoadValue (reg : U3) (value : U25) :
    (textLoadValue reg value).length = (dec value.toNat).length + 7 := by
  simp +arith [textLoadValue, ascii]

/-- A numeral of at least one digit, and of at most eight for a value of 25 bits. -/
theorem length_dec_value (value : U25) : 1 ≤ (dec value.toNat).length ∧ (dec value.toNat).length ≤ 8 :=
  ⟨List.length_pos_of_ne_nil (dec_ne_nil _),
    length_dec_le (by decide) (Nat.lt_trans value.isLt (by decide))⟩

/-- Settles O47: a text is as long as the literals of its template, two characters for each register name, and one to
eight for the numeral of the immediate. -/
theorem textLengthsAreThoseOfTheTemplates : Obligations.TextLengthsAreThoseOfTheTemplates := by
  intro w
  rw [render, ← toDecoded_decodeInstr]
  cases decodeInstr w with
  | cMov => simp [Instr.toDecoded, textOf, textCMov, ascii]
  | load => simp [Instr.toDecoded, textOf, textLoad, ascii]
  | store => simp [Instr.toDecoded, textOf, textStore, ascii]
  | add | mul | div | nand => simp [Instr.toDecoded, textOf, length_textBinary, ascii]
  | halt => simp [Instr.toDecoded, textOf, textHalt, ascii]
  | mapSegment => simp [Instr.toDecoded, textOf, textMapSegment, ascii]
  | unmapSegment => simp [Instr.toDecoded, textOf, textUnmapSegment, ascii]
  | output => simp [Instr.toDecoded, textOf, textOutput, ascii]
  | input => simp [Instr.toDecoded, textOf, textInput, ascii]
  | loadProgram => simp [Instr.toDecoded, textOf, textLoadProgram, ascii]
  | loadValue reg value =>
    have hvalue := length_dec_value value
    have hlength := length_textLoadValue reg value
    simp only [Instr.toDecoded, textOf, indexL, immediateOf]
    omega
  | unrecognized14 | unrecognized15 => simp [Instr.toDecoded, textOf, textData, ascii]

/-! ## Reading a text back (R95, R100) -/

/-- The character at a position. -/
def charAt (t : List Byte) (k : Nat) : Char := Char.ofNat (t.getD k 0).toNat

/-- The register whose digit stands at a position. -/
def regAt (t : List Byte) (k : Nat) : U3 := BitVec.ofNat 3 ((t.getD k 0).toNat - 0x30)

/-- The opcode of a text that assigns to a register, from what stands after `rN := `. -/
def opcodeOfAssignment (t : List Byte) : Opcode :=
  if (t.getD 6 0).toNat ≤ 0x39 then .loadValue
  else match charAt t 6, charAt t 7, charAt t 9 with
    | 'i', _, _ => .input
    | 'm', '[', _ => .load
    | 'm', _, _ => .mapSegment
    | _, _, '+' => .add
    | _, _, '*' => .mul
    | _, _, '/' => .div
    | _, _, _ => .nand

/-- The opcode a text shows: its first character names it, unless the text is an assignment or data. -/
def opcodeOfText (t : List Byte) : Option Opcode :=
  match charAt t 0 with
  | '.' => none
  | 'i' => some .cMov
  | 'm' => some .store
  | 'h' => some .halt
  | 'u' => some .unmapSegment
  | 'o' => some .output
  | 'g' => some .loadProgram
  | _ => some (opcodeOfAssignment t)

/-- The operands a text of the opcode shows: registers at fixed positions, and the numeral between `rN := ` and `;`. -/
def operandsOfText : Opcode → List Byte → Layout
  | .cMov, t => .threeRegister (regAt t 14) (regAt t 20) (regAt t 5)
  | .load, t => .threeRegister (regAt t 1) (regAt t 9) (regAt t 13)
  | .store, t => .threeRegister (regAt t 3) (regAt t 7) (regAt t 14)
  | .add, t | .mul, t | .div, t => .threeRegister (regAt t 1) (regAt t 7) (regAt t 12)
  | .nand, t => .threeRegister (regAt t 1) (regAt t 7) (regAt t 15)
  | .halt, _ => .halt
  | .mapSegment, t => .twoRegister (regAt t 1) (regAt t 20)
  | .unmapSegment, t => .oneRegister (regAt t 7)
  | .output, t => .oneRegister (regAt t 8)
  | .input, t => .oneRegister (regAt t 1)
  | .loadProgram, t => .twoRegister (regAt t 22) (regAt t 6)
  | .loadValue, t => .immediate (regAt t 1) (BitVec.ofNat 25 (readDec (t.drop 6).dropLast))

theorem regAt_of_getD {t : List Byte} {k : Nat} {i : U3} (h : t.getD k 0 = decDigit i.toNat) : regAt t k = i := by
  rw [regAt, h, decDigit_toNat (by omega), Nat.add_sub_cancel_left, BitVec.ofNat_toNat, BitVec.setWidth_eq]

theorem threeRegister_of_getD {t : List Byte} {i j k : Nat} {a b c : U3} (ha : t.getD i 0 = decDigit a.toNat)
    (hb : t.getD j 0 = decDigit b.toNat) (hc : t.getD k 0 = decDigit c.toNat) :
    Layout.threeRegister (regAt t i) (regAt t j) (regAt t k) = .threeRegister a b c := by
  rw [regAt_of_getD ha, regAt_of_getD hb, regAt_of_getD hc]

theorem twoRegister_of_getD {t : List Byte} {j k : Nat} {b c : U3} (hb : t.getD j 0 = decDigit b.toNat)
    (hc : t.getD k 0 = decDigit c.toNat) : Layout.twoRegister (regAt t j) (regAt t k) = .twoRegister b c := by
  rw [regAt_of_getD hb, regAt_of_getD hc]

theorem oneRegister_of_getD {t : List Byte} {k : Nat} {c : U3} (hc : t.getD k 0 = decDigit c.toNat) :
    Layout.oneRegister (regAt t k) = .oneRegister c := by
  rw [regAt_of_getD hc]

theorem opcodeOfText_textData (raw : Word32) : opcodeOfText (textData raw) = none := rfl

/-- The text of R91 has a digit where every other assignment has a letter. -/
theorem opcodeOfText_textLoadValue (reg : U3) (value : U25) :
    opcodeOfText (textLoadValue reg value) = some .loadValue := by
  obtain ⟨d, ds, hdec⟩ := List.exists_cons_of_ne_nil (dec_ne_nil value.toNat)
  have hmem : d ∈ dec value.toNat := hdec ▸ List.mem_cons_self
  obtain ⟨-, hdigit⟩ := isDigit_of_mem_dec hmem
  rw [textLoadValue, regName_eq, hdec]
  exact congrArg some (if_pos hdigit)

theorem opcodeOfText_textOf (op : Opcode) (lay : Layout) : opcodeOfText (textOf (.instr op lay)) = some op := by
  cases op with
  | cMov => simp only [textOf, textCMov, regName_eq]; rfl
  | load => simp only [textOf, textLoad, regName_eq]; rfl
  | store => simp only [textOf, textStore, regName_eq]; rfl
  | add | mul | div | nand => simp only [textOf, textBinary, regName_eq]; rfl
  | halt => rfl
  | mapSegment => simp only [textOf, textMapSegment, regName_eq]; rfl
  | unmapSegment => simp only [textOf, textUnmapSegment, regName_eq]; rfl
  | output => simp only [textOf, textOutput, regName_eq]; rfl
  | input => simp only [textOf, textInput, regName_eq]; rfl
  | loadProgram => simp only [textOf, textLoadProgram, regName_eq]; rfl
  | loadValue => exact opcodeOfText_textLoadValue _ _

theorem operandsOfText_textLoadValue (reg : U3) (value : U25) :
    operandsOfText .loadValue (textLoadValue reg value) = .immediate reg value := by
  have hnumeral : (textLoadValue reg value).drop 6 = dec value.toNat ++ [0x3B#8] := by
    rw [textLoadValue, regName_eq]
    rfl
  have hreg : (textLoadValue reg value).getD 1 0 = decDigit reg.toNat := by
    rw [textLoadValue, regName_eq]
    rfl
  rw [operandsOfText, regAt_of_getD hreg, hnumeral, List.dropLast_concat, readDec_dec, BitVec.ofNat_toNat,
    BitVec.setWidth_eq]

theorem operandsOfText_textOf (op : Opcode) (w : Word32) :
    operandsOfText op (textOf (.instr op (operands (layoutFor op) w))) = operands (layoutFor op) w := by
  cases op with
  | cMov => simp only [textOf, textCMov, regName_eq]; exact threeRegister_of_getD rfl rfl rfl
  | load => simp only [textOf, textLoad, regName_eq]; exact threeRegister_of_getD rfl rfl rfl
  | store => simp only [textOf, textStore, regName_eq]; exact threeRegister_of_getD rfl rfl rfl
  | add | mul | div | nand => simp only [textOf, textBinary, regName_eq]; exact threeRegister_of_getD rfl rfl rfl
  | halt => rfl
  | mapSegment => simp only [textOf, textMapSegment, regName_eq]; exact twoRegister_of_getD rfl rfl
  | unmapSegment => simp only [textOf, textUnmapSegment, regName_eq]; exact oneRegister_of_getD rfl
  | output => simp only [textOf, textOutput, regName_eq]; exact oneRegister_of_getD rfl
  | input => simp only [textOf, textInput, regName_eq]; exact oneRegister_of_getD rfl
  | loadProgram => simp only [textOf, textLoadProgram, regName_eq]; exact twoRegister_of_getD rfl rfl
  | loadValue => exact operandsOfText_textLoadValue _ _

theorem opcodeOfText_render (w : Word32) : opcodeOfText (render w) = opcodeOfCode (xOp w) := by
  obtain ⟨op, hop, -⟩ | ⟨hle, -⟩ := classify_cases w
  · rw [render_of_xOp_eq_code hop, opcodeOfText_textOf, hop, Laws.opcodeOfCode_code]
  · have hcodes : ∀ code : U4, 14#4 ≤ code → opcodeOfCode code = none := by decide
    rw [render_of_fourteen_le_xOp hle, opcodeOfText_textData, hcodes _ hle]

theorem decode_of_opcodeOfCode_eq_some {w : Word32} {op : Opcode} (h : opcodeOfCode (xOp w) = some op) :
    decode w = .instr op (operands (layoutFor op) w) := by
  simp [decode, classify, h]

theorem decode_of_opcodeOfCode_eq_none {w : Word32} (h : opcodeOfCode (xOp w) = none) : decode w = .data w := by
  simp [decode, classify, h]

/-- Settles O50: the text shows which opcode there is, if any, and then the operands or the data word. -/
theorem textAndDecodeResultDetermineEachOther : Obligations.TextAndDecodeResultDetermineEachOther := by
  refine fun w w' => ⟨fun htext => ?decoded, fun hdecode => congrArg textOf hdecode⟩
  have hcode : opcodeOfCode (xOp w) = opcodeOfCode (xOp w') := by
    rw [← opcodeOfText_render, htext, opcodeOfText_render]
  rw [render, render] at htext
  cases hop : opcodeOfCode (xOp w) with
  | some op =>
    rw [decode_of_opcodeOfCode_eq_some hop, decode_of_opcodeOfCode_eq_some (hcode ▸ hop)] at htext ⊢
    have hoperands := congrArg (operandsOfText op) htext
    rw [operandsOfText_textOf, operandsOfText_textOf] at hoperands
    rw [hoperands]
  | none =>
    rw [decode_of_opcodeOfCode_eq_none hop, decode_of_opcodeOfCode_eq_none (hcode ▸ hop)] at htext ⊢
    rw [textData_injective htext]

end Sys2Proof
